-- ==== Sys2Proof/Word.lean ====
section
/-!
DEFINITION. The widths of the block (00_scope.md R13): bytes of the two streams, 16-bit channel values and cached
distances, 32-bit invalid-run counters. All quantities are unsigned.
-/

namespace Sys2Proof

/-- A byte is 8 bits (00_scope.md R13). -/
abbrev Byte := BitVec 8

/-- A channel value or a cached distance, `DIST_W` = 16 bits (00_scope.md R9, 10_state.md R21). -/
abbrev Dist := BitVec 16

/-- A consecutive-invalid counter, `INV_W` = 32 bits (00_scope.md R9, 10_state.md R22). -/
abbrev Count := BitVec 32

end Sys2Proof
end

