-- ==== Sys2Proof/Config.lean ====
section
/-!
DEFINITION. The elaboration parameters of a block (00_scope.md R5 to R10): fixed at construction, read by the rules,
written by none. They are plain data, so that a statement over all states ranges over every block of the spec.
-/

namespace Sys2Proof

/-- `N ∈ {1, 2, 4}`, the number of channels (00_scope.md R5). -/
inductive ChannelCount where
  | one
  | two
  | four
  deriving DecidableEq, Repr

/-- The number itself (00_scope.md R5). -/
def ChannelCount.toNat : ChannelCount → Nat
  | .one => 1
  | .two => 2
  | .four => 4

/-- A block with any other `N` is not a block of the spec: building it is refused (00_scope.md R5, D3). -/
def ChannelCount.ofNat? : Nat → Option ChannelCount
  | 1 => some .one
  | 2 => some .two
  | 4 => some .four
  | _ => none

/-- `RANGE ∈ {short, long}` (00_scope.md R7). -/
inductive RangeMode where
  | long
  | short
  deriving DecidableEq, Repr

/-- The parameters of one block. -/
structure Config where
  /-- `N` (00_scope.md R5). -/
  n : ChannelCount
  /-- `RANGE` (00_scope.md R7): selects one command frame and nothing else. -/
  range : RangeMode
  /-- `EVW` (00_scope.md R8): the transport offers an event wait (true) or only a byte count (false). -/
  evw : Bool
  /-- `RD_MAX` (00_scope.md R10, OPEN): the longest read of the transport; `none` is unbounded. -/
  rdMax : Option Nat
  /-- `RXQ_DEPTH` (00_scope.md R10, OPEN): the capacity of the reference transport's queue; `none` is unbounded. -/
  rxqDepth : Option Nat
  deriving DecidableEq, Repr

/-- The operands `pixelCount` and `shortRange` of `construct` (30_encoding.md R95) and the transport variant, as a
block's parameters; the open sizes are left unbounded. `none` where `pixelCount` is not 1, 2 or 4 (D3). -/
def Config.build? (pixelCount : Nat) (shortRange evw : Bool) : Option Config :=
  (ChannelCount.ofNat? pixelCount).map fun n =>
    { n := n, range := if shortRange then .short else .long, evw := evw, rdMax := none, rxqDepth := none }

/-- The parameters of `State.reset`: `pixelCount` and `shortRange` omitted (30_encoding.md R96: `N = 4`, short).
DESIGN CHOICE (log 4): `EVW = false`; the spec gives no default. No statement rests on it. -/
def Config.default : Config :=
  { n := .four, range := .short, evw := false, rdMax := none, rxqDepth := none }

end Sys2Proof
end

