-- ==== Sys2Proof/Syntax.lean ====
section
/-!
DEFINITION. The rows of spec/opcode_table.json, one constructor each: the six host operations (format H,
30_encoding.md R93), the seven command frames (format C, 40_protocol_encoder.md R110) and the three response frames
(format R(N), 30_encoding.md R86). The internal stages have no row (30_encoding.md R98).
-/

namespace Sys2Proof

/-- One row of the opcode table, with its operands. -/
inductive Instr where
  /-- `update(raw=false)` (44_driver.md R176). -/
  | updateFlt
  /-- `update(raw=true)`, also the default `update()` (44_driver.md R175, 30_encoding.md R96). -/
  | updateRaw
  /-- The accessor `distance` (44_driver.md R179). -/
  | distance
  /-- The accessor `invalids` (44_driver.md R180). -/
  | invalids
  /-- `teardown()` (44_driver.md R181). -/
  | teardown
  /-- `construct(..)` (44_driver.md R172, R173). -/
  | construct
  /-- Command frame: pixel mode = 1 (40_protocol_encoder.md R111). -/
  | pixmode1
  /-- Command frame: pixel mode = 2 (40_protocol_encoder.md R112). -/
  | pixmode2
  /-- Command frame: pixel mode = 4 (40_protocol_encoder.md R113). -/
  | pixmode4
  /-- Command frame: output mode = text (40_protocol_encoder.md R114). -/
  | outtext
  /-- Command frame: output mode = binary (40_protocol_encoder.md R115). -/
  | outbin
  /-- Command frame: range = short (40_protocol_encoder.md R116). -/
  | rangeshort
  /-- Command frame: range = long (40_protocol_encoder.md R117). -/
  | rangelong
  /-- Response frame of one channel: channel 0 and the trailing byte (42_frame_decoder.md R151). -/
  | resp1 (a : Dist) (t : Byte)
  /-- Response frame of two channels and the trailing byte (42_frame_decoder.md R152). -/
  | resp2 (a b : Dist) (t : Byte)
  /-- Response frame of four channels and the trailing byte (42_frame_decoder.md R153). -/
  | resp4 (a b c d : Dist) (t : Byte)
  deriving DecidableEq, Repr

/-- The channel values a response frame carries, channel 0 first; no other row carries any. -/
def Instr.values : Instr → List Dist
  | .updateFlt | .updateRaw | .distance | .invalids | .teardown | .construct => []
  | .pixmode1 | .pixmode2 | .pixmode4 | .outtext | .outbin | .rangeshort | .rangelong => []
  | .resp1 a _ => [a]
  | .resp2 a b _ => [a, b]
  | .resp4 a b c d _ => [a, b, c, d]

/-- Is the row a response frame (format R)? -/
def Instr.isResponse : Instr → Bool
  | .updateFlt | .updateRaw | .distance | .invalids | .teardown | .construct => false
  | .pixmode1 | .pixmode2 | .pixmode4 | .outtext | .outbin | .rangeshort | .rangelong => false
  | .resp1 .. | .resp2 .. | .resp4 .. => true

/-- Is the row a host operation (format H)? -/
def Instr.isOperation : Instr → Bool
  | .updateFlt | .updateRaw | .distance | .invalids | .teardown | .construct => true
  | .pixmode1 | .pixmode2 | .pixmode4 | .outtext | .outbin | .rangeshort | .rangelong => false
  | .resp1 .. | .resp2 .. | .resp4 .. => false

end Sys2Proof
end

