-- ==== Sys2Proof/WellFormed.lean ====
section
/-!
DEFINITION. When a row of the table is one of the given block's own: a response-frame row belongs only to a block with
that row's `N` (30_encoding.md R98, 42_frame_decoder.md R151 to R153). Every field of every row is a bit vector of the
field's width, so no field can be out of range. A frame that is well-formed for another `N` still arrives (30_encoding.md
R89): it is delivered and later rejected by its length.
-/

namespace Sys2Proof

/-- Is the row one that a block with these parameters sends, executes or accepts? -/
def Instr.wellFormed (c : Config) : Instr → Bool
  | .updateFlt | .updateRaw | .distance | .invalids | .teardown | .construct => true
  | .pixmode1 | .pixmode2 | .pixmode4 | .outtext | .outbin | .rangeshort | .rangelong => true
  | .resp1 .. => decide (c.n = .one)
  | .resp2 .. => decide (c.n = .two)
  | .resp4 .. => decide (c.n = .four)

end Sys2Proof
end

