-- ==== Sys2Proof/Decode.lean ====
section
/-!
DEFINITION. Words to instructions and back (30_encoding.md). A word is a complete byte sequence in wire order; the three
formats are told apart by its length and its first byte (R80, R98). `decode` is total and answers `none` for every word
that is no row of the table. `encode` follows the same tables in the other direction.
-/

namespace Sys2Proof

/-- `HEADER`, the start marker of a response frame (00_scope.md R9). -/
def headerByte : Byte := 0x54

/-- `u16be(h, l) = 256*h + l` (00_scope.md R13, 20_memory.md R51). -/
def u16be (h l : Byte) : Dist := BitVec.ofNat 16 (256 * h.toNat + l.toNat)

/-- The byte of a channel value that arrives first (20_memory.md R51). -/
def hiByte (v : Dist) : Byte := BitVec.ofNat 8 (v.toNat / 256)

/-- The byte of a channel value that arrives second (20_memory.md R51). -/
def loByte (v : Dist) : Byte := BitVec.ofNat 8 v.toNat

/-- Format H (30_encoding.md R93): `hc[7:4]` must be 0, `hc[3:1]` is the operation, `hc[0]` the raw operand, which only
`update` may set. Every other word is reserved (R94). -/
def decodeHostWord (hc : Byte) : Option Instr :=
  match hc.extractLsb' 4 4, hc.extractLsb' 1 3, hc.extractLsb' 0 1 with
  | 0b0000#4, 0b001#3, 0#1 => some .updateFlt
  | 0b0000#4, 0b001#3, 1#1 => some .updateRaw
  | 0b0000#4, 0b010#3, 0#1 => some .distance
  | 0b0000#4, 0b011#3, 0#1 => some .invalids
  | 0b0000#4, 0b100#3, 0#1 => some .teardown
  | 0b0000#4, 0b101#3, 0#1 => some .construct
  | _, _, _ => none

/-- Format C (30_encoding.md R81, R82): the fields `lead`, `cmdId`, `param`, `checksum` of the seven constants
(40_protocol_encoder.md R110). No other command exists. -/
def decodeCommand (lead cmdId param checksum : Byte) : Option Instr :=
  match lead, cmdId, param, checksum with
  | 0x00#8, 0x21#8, 0x01#8, 0xBC#8 => some .pixmode1
  | 0x00#8, 0x21#8, 0x03#8, 0xB2#8 => some .pixmode2
  | 0x00#8, 0x21#8, 0x02#8, 0xB5#8 => some .pixmode4
  | 0x00#8, 0x11#8, 0x01#8, 0x45#8 => some .outtext
  | 0x00#8, 0x11#8, 0x02#8, 0x4C#8 => some .outbin
  | 0x00#8, 0x61#8, 0x01#8, 0xE7#8 => some .rangeshort
  | 0x00#8, 0x61#8, 0x03#8, 0xE9#8 => some .rangelong
  | _, _, _, _ => none

/-- The row a complete byte sequence selects, or `none` (30_encoding.md R86, R93, R98). -/
def decode : List Byte → Option Instr
  | [hc] => decodeHostWord hc
  | [b0, b1, b2, b3] =>
    if b0 = headerByte then some (.resp1 (u16be b1 b2) b3) else decodeCommand b0 b1 b2 b3
  | [b0, b1, b2, b3, b4, b5] =>
    if b0 = headerByte then some (.resp2 (u16be b1 b2) (u16be b3 b4) b5) else none
  | [b0, b1, b2, b3, b4, b5, b6, b7, b8, b9] =>
    if b0 = headerByte then some (.resp4 (u16be b1 b2) (u16be b3 b4) (u16be b5 b6) (u16be b7 b8) b9) else none
  | _ => none

/-- The bytes of a row in wire order: the hexadecimal words of 30_encoding.md R93, the constants of
40_protocol_encoder.md R110, the layouts of 30_encoding.md R86. -/
def encode : Instr → List Byte
  | .updateFlt => [0x02]
  | .updateRaw => [0x03]
  | .distance => [0x04]
  | .invalids => [0x06]
  | .teardown => [0x08]
  | .construct => [0x0A]
  | .pixmode1 => [0x00, 0x21, 0x01, 0xBC]
  | .pixmode2 => [0x00, 0x21, 0x03, 0xB2]
  | .pixmode4 => [0x00, 0x21, 0x02, 0xB5]
  | .outtext => [0x00, 0x11, 0x01, 0x45]
  | .outbin => [0x00, 0x11, 0x02, 0x4C]
  | .rangeshort => [0x00, 0x61, 0x01, 0xE7]
  | .rangelong => [0x00, 0x61, 0x03, 0xE9]
  | .resp1 a t => [headerByte, hiByte a, loByte a, t]
  | .resp2 a b t => [headerByte, hiByte a, loByte a, hiByte b, loByte b, t]
  | .resp4 a b c d t =>
    [headerByte, hiByte a, loByte a, hiByte b, loByte b, hiByte c, loByte c, hiByte d, loByte d, t]

/-- The length of a row's word in bytes: 1 for format H, 4 for format C, `2N + 2` for format R(N) (30_encoding.md R98). -/
def Instr.byteLength : Instr → Nat
  | .updateFlt | .updateRaw | .distance | .invalids | .teardown | .construct => 1
  | .pixmode1 | .pixmode2 | .pixmode4 | .outtext | .outbin | .rangeshort | .rangelong => 4
  | .resp1 .. => 4
  | .resp2 .. => 6
  | .resp4 .. => 10

/-- The `count` bytes of a table word, most significant byte first: the first byte on the wire is the most significant
byte of the row's pattern (30_encoding.md R98; log 12). -/
def bytesOfWord : (count w : Nat) → List Byte
  | 0, _ => []
  | count + 1, w => BitVec.ofNat 8 (w / 256 ^ count) :: bytesOfWord count w

/-- The row the decoder reads from a table word of `nbits` bits (30_encoding.md R98). -/
def decodeTableWord (nbits w : Nat) : Option Instr :=
  if nbits % 8 = 0 then decode (bytesOfWord (nbits / 8) w) else none

/-- One bit step of the CRC-8 of 30_encoding.md R84 (polynomial `0x07`, no reflection). -/
def crc8Bit (crc : Byte) : Byte :=
  if crc.msb then (crc <<< 1) ^^^ 0x07 else crc <<< 1

/-- The eight bit steps that take in one byte. -/
def crc8Byte (crc b : Byte) : Byte :=
  crc8Bit (crc8Bit (crc8Bit (crc8Bit (crc8Bit (crc8Bit (crc8Bit (crc8Bit (crc ^^^ b))))))))

/-- The CRC-8 of 30_encoding.md R84, initial value 0. An audit of the seven literals: no rule of the block computes or
checks a checksum (R84, R91). -/
def crc8 (bytes : List Byte) : Byte := bytes.foldl crc8Byte 0

end Sys2Proof
end

