-- ==== Sys2Proof/Machine/State.lean ====
section
/-!
DEFINITION. Everything the spec gives the machine, as plain data: the block's registers (10_state.md R20), its
parameters (R25), its output traces (R31), the transport as the block can see it (R32, 20_memory.md R62 to R67), and the
inputs that the host and the environment bring (00_scope.md R11). There is no program counter (R26) and no memory
(20_memory.md R50).
-/

namespace Sys2Proof.Machine

/-- The four values of the lifecycle register (10_state.md R23). -/
inductive Phase where
  | uninit
  | ready
  | failed
  | closed
  deriving DecidableEq, Repr

/-- The one notification the spec defines (10_state.md R31, 60_exceptions.md R218). -/
inductive Note where
  | transportUnavailable
  deriving DecidableEq, Repr

/-- What an accessor returned to the host: the integers, channel 0 first (44_driver.md R179, R180). -/
inductive Reply where
  | distances (values : List Nat)
  | counts (values : List Nat)
  deriving DecidableEq, Repr

/-- What the open transport would answer to each query (20_memory.md R62 to R65). No law ties one answer to another
(D8): each is any value of its type. -/
structure Answers where
  /-- The answer of `T.present()` (R62). -/
  present : Bool
  /-- The answer of `T.avail()` (R63). -/
  avail : Nat
  /-- The answer of `T.waitReadable()` (R64). -/
  readable : Bool
  /-- The bytes `T.readFrame()` returns (R65). -/
  frame : List Byte
  deriving DecidableEq, Repr

/-- The external transport: the reference transport `T_ref` (20_memory.md R67), or the open transport, whose answers are
free inputs (D8). -/
inductive Transport where
  /-- `T_ref`: is it present, and the bytes waiting in it, first in first out. -/
  | ref (present : Bool) (rxq : List Byte)
  /-- The open transport and its present answers. -/
  | free (answers : Answers)
  deriving DecidableEq, Repr

/-- One thing the host or the environment does (00_scope.md R11, 20_memory.md R68). -/
inductive Input where
  /-- A complete word of the opcode table: a host operation, or a frame on one of the two byte streams. -/
  | word (bytes : List Byte)
  /-- `RX b0 b1 ..`: the sensor delivers these bytes, left to right (30_encoding.md R95). -/
  | rx (bytes : List Byte)
  /-- The transport's state or answers change between operations (10_state.md R32, 20_memory.md R68). -/
  | transport (t : Transport)
  /-- The hardware reset (70_reset_and_hazards.md R240). -/
  | reset
  deriving DecidableEq, Repr

/-- The machine. -/
structure State where
  /-- The parameters `N`, `RANGE`, `EVW`, `RD_MAX`, `RXQ_DEPTH` (10_state.md R25): nothing writes them. -/
  cfg : Config
  /-- The lifecycle register (10_state.md R23). -/
  phase : Phase
  /-- The document's state "Configuring": the encoder runs its sequence. Only inside the atomic `CONSTRUCT`
  (10_state.md R23, 44_driver.md R170). -/
  configuring : Bool
  /-- The distance registers, channel 0 first (10_state.md R21). -/
  dist : List Dist
  /-- The invalid-run counters, channel 0 first (10_state.md R22). -/
  inv : List Count
  /-- The external transport (10_state.md R32). -/
  transport : Transport
  /-- The bytes handed to `T.write`, in order (10_state.md R31). -/
  tx : List Byte
  /-- The notifications emitted, in order (10_state.md R31). -/
  notes : List Note
  /-- What the accessors returned, in order (log 6). -/
  replies : List Reply
  /-- What the host and the environment do next (log 1). -/
  inputs : List Input
  deriving DecidableEq, Repr

/-- The block raises no exception, trap or fault, in any operation, on any input (60_exceptions.md R210): there is no
fault reason. -/
inductive Fault where
  deriving DecidableEq, Repr

/-- Why the model has no step: the combinations to which the spec gives no meaning (00_scope.md R17). Each is safe: the
model claims nothing where it refuses. -/
inductive Refusal where
  /-- Raised by an arm of `exec` that has no meaning yet. Safe. -/
  | notModelled (mnemonic : String)
  /-- Raised by `step` on a word that is no row of the table, a reserved host word among them (30_encoding.md R94, U9).
  Safe. -/
  | reservedWord (bytes : List Byte)
  /-- Raised by `CONSTRUCT` in any phase but `UNINIT` (44_driver.md R183). Safe. -/
  | constructOutsideUninit
  /-- Raised by `TEARDOWN` in `UNINIT`, where nothing was constructed (44_driver.md R183). Safe. -/
  | teardownBeforeConstruct
  /-- Raised by `TEARDOWN` in `CLOSED`: the transport is released exactly once (44_driver.md R183). Safe. -/
  | teardownAfterTeardown
  /-- Raised by a delivery that would exceed `RXQ_DEPTH` of the reference transport (20_memory.md R67, U16). Safe. -/
  | receiveQueueOverflow
  /-- Raised by a change of the transport beyond `RD_MAX` or `RXQ_DEPTH` (20_memory.md R65, R67). Safe. -/
  | transportBeyondBounds
  deriving DecidableEq, Repr

/-- `DIST_RESET` (00_scope.md R10, D4: the spec's own decision). -/
def distReset : Dist := 0x0000

/-- `INV_RESET` (00_scope.md R10, D5: the spec's own decision). -/
def invReset : Count := 0

/-- The state after reset of a block with parameters `c`, beside a transport that reset does not touch
(10_state.md R35, 70_reset_and_hazards.md R240). -/
def State.resetWith (c : Config) (t : Transport) (inputs : List Input) : State :=
  { cfg := c
    phase := .uninit
    configuring := false
    dist := List.replicate c.n.toNat distReset
    inv := List.replicate c.n.toNat invReset
    transport := t
    tx := []
    notes := []
    replies := []
    inputs := inputs }

/-- The machine right after reset (10_state.md R35), with the API's default parameters (30_encoding.md R96; log 4).
DESIGN CHOICE (log 7): the transport, which R35 leaves unspecified, is a present and empty `T_ref`. -/
def State.reset : State := State.resetWith Config.default (.ref true []) []

end Sys2Proof.Machine
end

