-- ==== Sys2Proof/Machine/Operands.lean ====
section
/-!
DEFINITION. Operand assembly (30_encoding.md R87): the expected length, the channel values of a frame, the validity of a
byte sequence as a frame, and the integers the accessors return.
-/

namespace Sys2Proof.Machine

/-- `L = 2*N + 2`, the length of a response frame (00_scope.md R6). -/
def frameLength (c : Config) : Nat := 2 * c.n.toNat + 2

/-- A byte sequence is a valid response frame iff its length is `L` and its first byte is `0x54` (30_encoding.md R90). -/
def validFrame (c : Config) (f : List Byte) : Bool :=
  decide (f.length = frameLength c) && decide (f.head? = some headerByte)

/-- The first `count` big-endian 16-bit values of a payload, in order (42_frame_decoder.md R150). DESIGN CHOICE (log 25): on
a payload that is too short, to which the spec gives no result (R156), it yields the values it can; no step reaches that
case. -/
def channelValues : (count : Nat) → (payload : List Byte) → List Dist
  | count + 1, h :: l :: rest => u16be h l :: channelValues count rest
  | _, _ => []

/-- `DECODE` (42_frame_decoder.md R150): the `N` channel values of a frame, offsets `1 .. 2N`. Only ever applied to a
valid frame (R156), so every byte it asks for exists; the trailing byte is never looked at (R155). Its argument is any
list of bytes where R156 asks for a frame of exactly `L` bytes: the other lengths are filler (log 25). -/
def decodeFrame (c : Config) (f : List Byte) : List Dist := channelValues c.n.toNat f.tail

/-- The read view `distance`: the zero-extended registers, channel 0 first (44_driver.md R179, 10_state.md R34). -/
def distanceView (s : State) : List Nat := s.dist.map BitVec.toNat

/-- The read view `invalids`: the zero-extended counters, channel 0 first (44_driver.md R180, 10_state.md R34). -/
def invalidsView (s : State) : List Nat := s.inv.map BitVec.toNat

end Sys2Proof.Machine
end

