-- ==== Sys2Proof/Machine/Flags.lean ====
section
/-!
DEFINITION. The one flag of the block (10_state.md R24), the status and configuration registers as they read (R25), the
sentinel codes of a channel value (30_encoding.md R88) and the saturating increment (43_validity_tracker.md R166).
-/

namespace Sys2Proof.Machine

/-- `ready` is true exactly when `phase = READY` (10_state.md R24). -/
def State.ready (s : State) : Bool := decide (s.phase = .ready)

/-- `STATUS.READY`, 1 bit (10_state.md R25). -/
def State.statusReady (s : State) : BitVec 1 := BitVec.ofBool s.ready

/-- `CFG.N`, 3 bits, value 1, 2 or 4 (10_state.md R25, D2). -/
def State.cfgN (s : State) : BitVec 3 := BitVec.ofNat 3 s.cfg.n.toNat

/-- `CFG.RANGE`, 1 bit, 0 = long, 1 = short (10_state.md R25, D2). -/
def State.cfgRange (s : State) : BitVec 1 := BitVec.ofBool (decide (s.cfg.range = .short))

/-- `CFG.EVW`, 1 bit (10_state.md R25). -/
def State.cfgEvw (s : State) : BitVec 1 := BitVec.ofBool s.cfg.evw

/-- `INVALID`, the only value the tracker treats specially (00_scope.md R9). -/
def invalidCode : Dist := 0x0001

/-- `BELOW_MIN` (00_scope.md R9). -/
def belowMinCode : Dist := 0x0000

/-- `ABOVE_MAX` (00_scope.md R9). -/
def aboveMaxCode : Dist := 0xFFFF

/-- The meanings of a channel value (30_encoding.md R88). -/
inductive Reading where
  | belowMinimum
  | aboveMaximum
  | invalid
  | distance
  deriving DecidableEq, Repr

/-- The meaning of a channel value (30_encoding.md R88); a distance is in uninterpreted units (00_scope.md R19). -/
def readingOf (v : Dist) : Reading :=
  if v = belowMinCode then .belowMinimum
  else if v = aboveMaxCode then .aboveMaximum
  else if v = invalidCode then .invalid
  else .distance

/-- The tracker's test: the whole 16-bit value is `0x0001` (43_validity_tracker.md R163). -/
def isInvalid (v : Dist) : Bool := decide (v = invalidCode)

/-- `sat_inc`: a counter at `0xFFFFFFFF` stays there (43_validity_tracker.md R166, D6: the spec's own decision). -/
def satInc (k : Count) : Count := if k = 0xFFFFFFFF then 0xFFFFFFFF else k + 1

end Sys2Proof.Machine
end

