-- ==== Sys2Proof/Machine/Transport.lean ====
section
/-!
DEFINITION. The transport primitives of 00_scope.md R16 for the two transports of the model: the reference transport
`T_ref` (20_memory.md R67) and the open transport, whose answers are free (20_memory.md R62 to R65, D8).
-/

namespace Sys2Proof.Machine

/-- `T.present()` (20_memory.md R62). -/
def tPresent : Transport → Bool
  | .ref present _ => present
  | .free a => a.present

/-- `T.avail()`: the number of bytes ready; consumes nothing (20_memory.md R63). -/
def tAvail : Transport → Nat
  | .ref _ rxq => rxq.length
  | .free a => a.avail

/-- `T.waitReadable()`: the boolean the bounded wait returns; consumes nothing (20_memory.md R64). -/
def tWaitReadable : Transport → Bool
  | .ref _ rxq => decide (1 ≤ rxq.length)
  | .free a => a.readable

/-- `T.readFrame()`: the bytes returned, and the transport without them (20_memory.md R65). `T_ref` returns at most
`length` bytes from the head of its queue (R67). The open transport returns any sequence; what it answers next is again
free, and is what it answers now until an input changes it (R68; log 18). DESIGN CHOICE (log 24): `RD_MAX` bounds the
open answer only, so `T_ref` returns up to `L` bytes on a block with `RD_MAX` below `L` too. -/
def tReadFrame (length : Nat) : Transport → List Byte × Transport
  | .ref present rxq => (rxq.take length, .ref present (rxq.drop length))
  | .free a => (a.frame, .free a)

/-- `T.release()` (20_memory.md R66, R67): `T_ref` becomes absent and keeps its queue. After it the block asks the
transport nothing. -/
def tRelease : Transport → Transport
  | .ref _ rxq => .ref false rxq
  | .free a => .free a

/-- The sensor delivers bytes, in order (event `RXBYTE` of 20_memory.md R67). The open transport's answers are free
already and no law ties them to a delivery (D8; log 2). -/
def tDeliver (bytes : List Byte) : Transport → Transport
  | .ref present rxq => .ref present (rxq ++ bytes)
  | .free a => .free a

/-- Does a size respect an open bound? `none` is unbounded (00_scope.md R10). -/
def withinBound (size : Nat) : Option Nat → Bool
  | none => true
  | some bound => decide (size ≤ bound)

/-- Does `T_ref` have room for these bytes? What it does when it is full is not modelled (20_memory.md R67, U16). -/
def tHasRoom (c : Config) (bytes : List Byte) : Transport → Bool
  | .ref _ rxq => withinBound (rxq.length + bytes.length) c.rxqDepth
  | .free _ => true

/-- The capacity `RXQ_DEPTH` of `T_ref` (20_memory.md R67) and the bound `RD_MAX` of an open answer (R65). DESIGN CHOICE
(log 24): `RD_MAX` is not applied to `T_ref`, whose read is the sized one of R67; where `RD_MAX` is below `L` the spec does
not reconcile the two. -/
def tWithinBounds (c : Config) : Transport → Bool
  | .ref _ rxq => withinBound rxq.length c.rxqDepth
  | .free a => withinBound a.frame.length c.rdMax

end Sys2Proof.Machine
end

