-- ==== Sys2Proof/Machine/Ops.lean ====
section
/-!
DEFINITION. The shared operations over the state: the register writes of 00_scope.md R15, the output events of R16, the
inputs of the host and the environment, and the hardware reset. The block raises nothing, so there is no exception to
take and none to return from (60_exceptions.md R210, R220, R221).
-/

namespace Sys2Proof.Machine

/-- `phase <- p` (00_scope.md R15). -/
def State.setPhase (p : Phase) (s : State) : State := { s with phase := p }

/-- Enter or leave "Configuring" (44_driver.md R170). -/
def State.setConfiguring (b : Bool) (s : State) : State := { s with configuring := b }

/-- `dist[i] <- ..` and `inv[i] <- ..` for every channel (00_scope.md R15). -/
def State.setCache (dist : List Dist) (inv : List Count) (s : State) : State := { s with dist := dist, inv := inv }

/-- The transport after it answered, or after the environment changed it. -/
def State.setTransport (t : Transport) (s : State) : State := { s with transport := t }

/-- `T.write(b)`: the bytes are appended to the trace `tx` (20_memory.md R66). -/
def State.write (bytes : List Byte) (s : State) : State := { s with tx := s.tx ++ bytes }

/-- `emit(e)` (00_scope.md R16). -/
def State.emit (e : Note) (s : State) : State := { s with notes := s.notes ++ [e] }

/-- An accessor returns its integers to the host (44_driver.md R179, R180; log 6). -/
def State.reply (r : Reply) (s : State) : State := { s with replies := s.replies ++ [r] }

/-- The inputs still to come. -/
def State.setInputs (inputs : List Input) (s : State) : State := { s with inputs := inputs }

/-- What the host or the environment does next, and the state without that input; `none` when nothing is left to do. -/
def nextInput (s : State) : Option (Input × State) :=
  match s.inputs with
  | [] => none
  | i :: rest => some (i, s.setInputs rest)

/-- The host or a stream presents a word next. -/
def State.pushWord (bytes : List Byte) (s : State) : State := s.setInputs (.word bytes :: s.inputs)

/-- Between operations the block is idle and holds its registers (60_exceptions.md R217, R231). -/
def idle (s : State) : Host.Outcome State Fault Refusal := .next s

/-- A word that is no row of the table has no meaning (30_encoding.md R94). -/
def refuseWord (bytes : List Byte) (_s : State) : Host.Outcome State Fault Refusal := .refused (.reservedWord bytes)

/-- The sensor delivers bytes to the receive stream; no register of the block changes (20_memory.md R67, R68). -/
def receive (bytes : List Byte) (s : State) : Host.Outcome State Fault Refusal :=
  if tHasRoom s.cfg bytes s.transport then .next (s.setTransport (tDeliver bytes s.transport))
  else .refused .receiveQueueOverflow

/-- The environment changes the transport or its answers between operations; no register of the block changes
(10_state.md R32, 20_memory.md R68). DESIGN CHOICE (log 23): the change may be to any transport within the bounds, in any
phase, where R67 and R68 name only `RXBYTE`, the block's own read and release for `T_ref`. Safe: it admits more. -/
def changeTransport (t : Transport) (s : State) : Host.Outcome State Fault Refusal :=
  if tWithinBounds s.cfg t then .next (s.setTransport t) else .refused .transportBeyondBounds

/-- The hardware reset: every register and trace at its reset value, nothing outside the block touched
(70_reset_and_hazards.md R240). -/
def hardwareReset (s : State) : Host.Outcome State Fault Refusal :=
  .next (State.resetWith s.cfg s.transport s.inputs)

end Sys2Proof.Machine
end

