-- ==== Sys2Proof/Machine/Encoder.lean ====
section
/-!
DEFINITION. The ProtocolEncoder adjunct (40_protocol_encoder.md): the configuration sequence `CFGSEQ` and the meaning of
the seven command frames. A frame is handed to `T.write` in the Configuring stage, when R119 and R120 select it for this
block, and at no other time (R114, R123; log 3). No frame writes a register of the block and none raises anything.
-/

namespace Sys2Proof.Machine

/-- `pixcmd(N)` (40_protocol_encoder.md R119). -/
def pixcmd : ChannelCount → Instr
  | .two => .pixmode2
  | .four => .pixmode4
  | .one => .pixmode1

/-- `rangecmd(RANGE)` (40_protocol_encoder.md R120). -/
def rangecmd : RangeMode → Instr
  | .short => .rangeshort
  | .long => .rangelong

/-- The three frames of `CFGSEQ`, in order (40_protocol_encoder.md R118). -/
def cfgFrames (c : Config) : List Instr := [pixcmd c.n, .outbin, rangecmd c.range]

/-- The 12 bytes of `CFGSEQ` (40_protocol_encoder.md R118). -/
def cfgBytes (c : Config) : List Byte := (cfgFrames c).flatMap encode

/-- The encoder's handling of one of its constants: in the Configuring stage a frame that the block's parameters select
goes to `T.write` in one write of 4 bytes (40_protocol_encoder.md R118, 30_encoding.md R83); outside that stage nothing
is ever sent (R123). The delay after the write changes no state (R121). -/
def sendCommand (frame : Instr) (s : State) : State :=
  if s.configuring && decide (frame ∈ cfgFrames s.cfg) then s.write (encode frame) else s

/-- `CFGSEQ` (40_protocol_encoder.md R118): through "Configuring", the three frames in order. -/
def cfgSeq (s : State) : State :=
  ((cfgFrames s.cfg).foldl (fun s frame => sendCommand frame s) (s.setConfiguring true)).setConfiguring false

/-- `PIXMODE1` (40_protocol_encoder.md R111). -/
def execPixmode1 (s : State) : Host.Outcome State Fault Refusal := .next (sendCommand .pixmode1 s)

/-- `PIXMODE2` (40_protocol_encoder.md R112). -/
def execPixmode2 (s : State) : Host.Outcome State Fault Refusal := .next (sendCommand .pixmode2 s)

/-- `PIXMODE4` (40_protocol_encoder.md R113). -/
def execPixmode4 (s : State) : Host.Outcome State Fault Refusal := .next (sendCommand .pixmode4 s)

/-- `OUTTEXT`: held in the table and never sent (40_protocol_encoder.md R114). -/
def execOuttext (s : State) : Host.Outcome State Fault Refusal := .next (sendCommand .outtext s)

/-- `OUTBIN` (40_protocol_encoder.md R115). -/
def execOutbin (s : State) : Host.Outcome State Fault Refusal := .next (sendCommand .outbin s)

/-- `RANGESHORT` (40_protocol_encoder.md R116). -/
def execRangeshort (s : State) : Host.Outcome State Fault Refusal := .next (sendCommand .rangeshort s)

/-- `RANGELONG` (40_protocol_encoder.md R117). -/
def execRangelong (s : State) : Host.Outcome State Fault Refusal := .next (sendCommand .rangelong s)

end Sys2Proof.Machine
end

