-- ==== Sys2Proof/Machine/Reader.lean ====
section
/-!
DEFINITION. The FrameReader: stage `TRYREAD` (41_frame_reader.md).
-/

namespace Sys2Proof.Machine

/-- What `TRYREAD` answers: `none` for one of three reasons, or a valid frame (41_frame_reader.md R130). -/
inductive ReadResult where
  | noData
  | badLength
  | badHeader
  | frame (bytes : List Byte)
  deriving DecidableEq, Repr

/-- The gate: the event wait when `EVW = true` (41_frame_reader.md R131), `T.avail() ≥ L` otherwise (R132). -/
def gate (c : Config) (t : Transport) : Bool :=
  if c.evw then tWaitReadable t else decide (frameLength c ≤ tAvail t)

/-- The two tests of a byte sequence that was read, length first (41_frame_reader.md R135, D7). -/
def judgeFrame (c : Config) (f : List Byte) : ReadResult :=
  if f.length = frameLength c then
    if f.head? = some headerByte then .frame f else .badHeader
  else .badLength

/-- `TRYREAD` (41_frame_reader.md R130): one read at most, nothing consumed when the gate is false (R133), whatever was
read gone from the stream (R134, R136). -/
def tryRead (s : State) : ReadResult × State :=
  if gate s.cfg s.transport then
    let answer := tReadFrame (frameLength s.cfg) s.transport
    (judgeFrame s.cfg answer.1, s.setTransport answer.2)
  else (.noData, s)

end Sys2Proof.Machine
end

