-- ==== Sys2Proof/Machine/Tracker.lean ====
section
/-!
DEFINITION. The ValidityTracker: stage `TRACK` (43_validity_tracker.md), the only thing that writes `dist` and `inv`.
-/

namespace Sys2Proof.Machine

/-- `dist[i]` after the reading `v`: kept only by an invalid reading in filtered mode (43_validity_tracker.md R161). -/
def trackDist (raw : Bool) (v d : Dist) : Dist := if !raw && isInvalid v then d else v

/-- `inv[i]` after the reading `v`: untouched in raw mode, else incremented or cleared (43_validity_tracker.md R161). -/
def trackInv (raw : Bool) (v : Dist) (k : Count) : Count :=
  if raw then k else if isInvalid v then satInc k else 0

/-- `TRACK(raw, v)`: each channel takes its own transition (43_validity_tracker.md R161, R167). It is only applied to `N`
values and, in every reachable state, to `N` registers; lists of other lengths are filler (log 25). -/
def track (raw : Bool) (values : List Dist) (s : State) : State :=
  s.setCache (List.zipWith (trackDist raw) values s.dist) (List.zipWith (trackInv raw) values s.inv)

end Sys2Proof.Machine
end

