-- ==== Sys2Proof/Machine/Driver.lean ====
section
/-!
DEFINITION. The Driver facade (44_driver.md): the six operations the host can issue.
-/

namespace Sys2Proof.Machine

/-- The outcome labels of an `UPDATE` (44_driver.md R178, D15): neither stored nor shown to the host. -/
inductive UpdateOutcome where
  | notReady
  | noData
  | badLength
  | badHeader
  | applied
  deriving DecidableEq, Repr

/-- `UPDATE(raw)` (44_driver.md R174): the ready check, `TRYREAD`, `DECODE`, `TRACK`, with the label of the path taken.
While `ready` is false nothing at all is done (R177). -/
def update (raw : Bool) (s : State) : UpdateOutcome × State :=
  if s.ready then
    match tryRead s with
    | (.noData, s') => (.noData, s')
    | (.badLength, s') => (.badLength, s')
    | (.badHeader, s') => (.badHeader, s')
    | (.frame f, s') => (.applied, track raw (decodeFrame s'.cfg f) s')
  else (.notReady, s)

/-- `UPDATE.RAW` (44_driver.md R175). -/
def execUpdateRaw (s : State) : Host.Outcome State Fault Refusal := .next (update true s).2

/-- `UPDATE.FLT` (44_driver.md R176). -/
def execUpdateFlt (s : State) : Host.Outcome State Fault Refusal := .next (update false s).2

/-- `DISTANCE` (44_driver.md R179), in every phase (R182, D13). -/
def execDistance (s : State) : Host.Outcome State Fault Refusal := .next (s.reply (.distances (distanceView s)))

/-- `INVALIDS` (44_driver.md R180), in every phase (R182, D13). -/
def execInvalids (s : State) : Host.Outcome State Fault Refusal := .next (s.reply (.counts (invalidsView s)))

/-- `TEARDOWN` (44_driver.md R181): from `READY` the transport is released, from `FAILED` there is none to release;
elsewhere the spec gives no meaning (R183, D12). -/
def execTeardown (s : State) : Host.Outcome State Fault Refusal :=
  match s.phase with
  | .ready => .next ((s.setTransport (tRelease s.transport)).setPhase .closed)
  | .failed => .next (s.setPhase .closed)
  | .uninit => .refused .teardownBeforeConstruct
  | .closed => .refused .teardownAfterTeardown

/-- `CONSTRUCT` (44_driver.md R172, R173): in `UNINIT` only (R183). It reads nothing from the transport and does not
flush it (D23). -/
def execConstruct (s : State) : Host.Outcome State Fault Refusal :=
  if s.phase = .uninit then
    if tPresent s.transport then .next ((cfgSeq s).setPhase .ready)
    else .next ((s.emit .transportUnavailable).setPhase .failed)
  else .refused .constructOutsideUninit

end Sys2Proof.Machine
end

