-- ==== Sys2Proof/Machine/Responses.lean ====
section
/-!
DEFINITION. The three response frames as events: the sensor delivers the frame's bytes to the receive stream
(30_encoding.md R95, 20_memory.md R67). A response frame writes no state of the block by itself; the next `UPDATE` that
reads it decodes it (42_frame_decoder.md R151 to R153). It arrives on a block of any `N` (30_encoding.md R89; log 2).
-/

namespace Sys2Proof.Machine

/-- `RESP1` (42_frame_decoder.md R151). -/
def execResp1 (a : Dist) (t : Byte) (s : State) : Host.Outcome State Fault Refusal :=
  receive (encode (.resp1 a t)) s

/-- `RESP2` (42_frame_decoder.md R152). -/
def execResp2 (a b : Dist) (t : Byte) (s : State) : Host.Outcome State Fault Refusal :=
  receive (encode (.resp2 a b t)) s

/-- `RESP4` (42_frame_decoder.md R153). -/
def execResp4 (a b c d : Dist) (t : Byte) (s : State) : Host.Outcome State Fault Refusal :=
  receive (encode (.resp4 a b c d t)) s

end Sys2Proof.Machine
end

