-- ==== Sys2Proof/Machine/Dispatch.lean ====
section
/-! DEFINITION. One arm per row of the opcode table: the meaning of each instruction. -/

namespace Sys2Proof.Machine

def exec (i : Instr) (s : State) : Host.Outcome State Fault Refusal :=
  match i with
  -- format H: the host operations (30_encoding.md R93)
  | .updateFlt => Sys2Proof.Machine.execUpdateFlt s
  | .updateRaw => Sys2Proof.Machine.execUpdateRaw s
  | .distance => Sys2Proof.Machine.execDistance s
  | .invalids => Sys2Proof.Machine.execInvalids s
  | .teardown => Sys2Proof.Machine.execTeardown s
  | .construct => Sys2Proof.Machine.execConstruct s
  -- format C: the command frames (40_protocol_encoder.md R110)
  | .pixmode1 => Sys2Proof.Machine.execPixmode1 s
  | .pixmode2 => Sys2Proof.Machine.execPixmode2 s
  | .pixmode4 => Sys2Proof.Machine.execPixmode4 s
  | .outtext => Sys2Proof.Machine.execOuttext s
  | .outbin => Sys2Proof.Machine.execOutbin s
  | .rangeshort => Sys2Proof.Machine.execRangeshort s
  | .rangelong => Sys2Proof.Machine.execRangelong s
  -- format R(N): the response frames (30_encoding.md R86)
  | .resp1 a t => Sys2Proof.Machine.execResp1 a t s
  | .resp2 a b t => Sys2Proof.Machine.execResp2 a b t s
  | .resp4 a b c d t => Sys2Proof.Machine.execResp4 a b c d t s

end Sys2Proof.Machine
end

