-- ==== Sys2Proof/Machine/Step.lean ====
section
/-!
DEFINITION. One step: what the host or the environment does next (00_scope.md R11). The block has no program counter and
fetches nothing (10_state.md R26); the words it is given stand in `inputs`, in order (log 1).
-/

namespace Sys2Proof.Machine

/-- One step. A word of the table is decoded and executed as one atomic transition (20_memory.md R58); the other inputs
are the environment's; with no input the block is idle (60_exceptions.md R217). -/
def step (s : State) : Host.Outcome State Fault Refusal :=
  match nextInput s with
  | none => idle s
  | some (.word bytes, s') =>
    match decode bytes with
    | some i => exec i s'
    | none => refuseWord bytes s'
  | some (.rx bytes, s') => receive bytes s'
  | some (.transport t, s') => changeTransport t s'
  | some (.reset, s') => hardwareReset s'

/-- `s` with a table word presented next (log 1). -/
def State.withFetchWord (s : State) (nbits w : Nat) : State := s.pushWord (bytesOfWord (nbits / 8) w)

end Sys2Proof.Machine
end

