-- ==== Sys2Proof/Safety.lean ====
section
/-!
DEFINITION. What the statements mean by a sound state, by state that an operation leaves alone, and by a run.
-/

namespace Sys2Proof.Machine

/-- Every channel register still holds its reset value (10_state.md R35, D4, D5). -/
def State.CacheAtReset (s : State) : Prop :=
  s.dist = List.replicate s.cfg.n.toNat distReset ∧ s.inv = List.replicate s.cfg.n.toNat invReset

/-- A construction found no transport: the one notification stands in `notes`, once (44_driver.md R173, D16). -/
def State.FailureNoted (s : State) : Prop := s.notes.count .transportUnavailable = 1

/-- No construction failed (44_driver.md R172, D16). -/
def State.NoFailureNoted (s : State) : Prop := s.notes.count .transportUnavailable = 0

/-- What each phase says of the traces and the cache (60_exceptions.md R223, 40_protocol_encoder.md R118, R123). -/
def State.PhaseSound (s : State) : Prop :=
  match s.phase with
  | .uninit => s.tx = [] ∧ s.NoFailureNoted ∧ s.CacheAtReset
  | .ready => s.tx = cfgBytes s.cfg ∧ s.NoFailureNoted
  | .failed => s.tx = [] ∧ s.FailureNoted ∧ s.CacheAtReset
  | .closed => (s.tx = cfgBytes s.cfg ∧ s.NoFailureNoted) ∨ (s.tx = [] ∧ s.FailureNoted ∧ s.CacheAtReset)

/-- The states between operations. -/
structure State.Sound (s : State) : Prop where
  /-- There are exactly `N` distance registers (10_state.md R27). -/
  distLength : s.dist.length = s.cfg.n.toNat
  /-- There are exactly `N` counters (10_state.md R27). -/
  invLength : s.inv.length = s.cfg.n.toNat
  /-- "Configuring" is never the state between two operations (10_state.md R23). -/
  notConfiguring : s.configuring = false
  /-- The transport respects its open bounds (20_memory.md R65, R67). -/
  transportWithin : tWithinBounds s.cfg s.transport = true
  /-- The phase, the traces and the cache agree. -/
  phaseSound : s.PhaseSound

/-- Both states hold the same cache registers. -/
abbrev SameCache (s t : State) : Prop := t.dist = s.dist ∧ t.inv = s.inv

/-- Both states hold the same lifecycle register and parameters, and neither is inside a `CONSTRUCT` that the other is
not in. -/
abbrev SameControl (s t : State) : Prop := t.phase = s.phase ∧ t.configuring = s.configuring ∧ t.cfg = s.cfg

/-- Both states hold the same output traces; of `notes` only what D16 allows a claim to say, whether a failed
construction was notified. -/
abbrev SameTraces (s t : State) : Prop :=
  t.tx = s.tx ∧ t.replies = s.replies ∧
    t.notes.count .transportUnavailable = s.notes.count .transportUnavailable

/-- Both states hold the same inputs still to come. -/
abbrev SameInputs (s t : State) : Prop := t.inputs = s.inputs

/-- Everything is the same but, perhaps, the transport and notifications no claim may mention (D16). -/
abbrev SameBlock (s t : State) : Prop := SameCache s t ∧ SameControl s t ∧ SameTraces s t ∧ SameInputs s t

/-- Everything is the same but, perhaps, notifications no claim may mention (D16). -/
abbrev SameMachine (s t : State) : Prop := SameBlock s t ∧ t.transport = s.transport

/-- There are exactly `N` registers of each kind (10_state.md R27). -/
abbrev State.CacheSized (s : State) : Prop := s.dist.length = s.cfg.n.toNat ∧ s.inv.length = s.cfg.n.toNat

/-- The answer of the one read an `UPDATE` makes: the bytes, and the transport without them (41_frame_reader.md R134). -/
abbrev State.readAnswer (s : State) : List Byte × Transport := tReadFrame (frameLength s.cfg) s.transport

/-- The one read an `UPDATE` makes is made, and returns a valid frame (44_driver.md R174, R178: outcome `APPLIED`). -/
abbrev State.FrameAccepted (s : State) : Prop :=
  s.phase = .ready ∧ gate s.cfg s.transport = true ∧ validFrame s.cfg s.readAnswer.1 = true

/-- `update(raw)` as an instruction (30_encoding.md R93). -/
def updateInstr (raw : Bool) : Instr := if raw then .updateRaw else .updateFlt

/-- A run of `k` steps that neither faults nor is refused ends in `t`. -/
def RunsTo (k : Nat) (s t : State) : Prop := Host.Core.run Sys2Proof.core k s = .next t

end Sys2Proof.Machine
end

