-- ==== Sys2Proof/Certificates/Slice0/Obligations.lean ====
section
/-!
DEFINITION. The statements for the provers, each a rule of spec/ or a consequence of several. Where a statement rests on
a decision of the spec (D<n> of 92_eei_decisions.md) or on a choice of this model (log <n>), its docstring says so.
-/

open Sys2Proof Sys2Proof.Machine

/-! ## Words and frames -/

/-- Decoding an encoded instruction gives it back, with every operand at every value (30_encoding.md R86, R93,
40_protocol_encoder.md R110). -/
def Obligations.DecodeOfEncodeIsTheInstruction : Prop := ∀ i : Instr, decode (encode i) = some i

/-- Every word that decodes is the one word of its instruction: no bit of a word is ignored and no two words share an
instruction (30_encoding.md R98). -/
def Obligations.EncodeOfDecodeIsTheWord : Prop :=
  ∀ (bytes : List Byte) (i : Instr), decode bytes = some i → encode i = bytes

/-- The words of the spec's tables, written out, are the rows they stand for (30_encoding.md R93, R86,
40_protocol_encoder.md R110; numbered as R98 says, a decision of the spec, D17; log 12). -/
def Obligations.TableWordsSelectTheirRows : Prop :=
  decodeTableWord 8 0b00000010 = some .updateFlt ∧
  decodeTableWord 8 0b00000011 = some .updateRaw ∧
  decodeTableWord 8 0b00000100 = some .distance ∧
  decodeTableWord 8 0b00000110 = some .invalids ∧
  decodeTableWord 8 0b00001000 = some .teardown ∧
  decodeTableWord 8 0b00001010 = some .construct ∧
  decodeTableWord 32 0x002101BC = some .pixmode1 ∧
  decodeTableWord 32 0x00110145 = some .outtext ∧
  decodeTableWord 32 0x006103E9 = some .rangelong ∧
  decodeTableWord 32 0x5401F49A = some (.resp1 500 0x9A) ∧
  decodeTableWord 48 0x540001123400 = some (.resp2 1 4660 0) ∧
  decodeTableWord 80 0x54006400C8012CFFFF00 = some (.resp4 100 200 300 65535 0)

/-- A reserved host word is refused, and of the 256 words 250 are reserved (30_encoding.md R94; that the words exist and
are refused is the spec's decision D14). -/
def Obligations.ReservedHostWordIsRefused : Prop :=
  (∀ (s : State) (hc : Byte) (rest : List Input), s.inputs = .word [hc] :: rest →
    hc ∉ ([0x02, 0x03, 0x04, 0x06, 0x08, 0x0A] : List Byte) → step s = .refused (.reservedWord [hc])) ∧
  ((List.range 256).filter fun w => (decode [BitVec.ofNat 8 w]).isNone).length = 250

/-- A byte sequence is a valid frame for a block exactly when it selects a response-frame row of that block's own `N`
(30_encoding.md R90, R98; the row rule is the spec's decision D17). -/
def Obligations.ValidFrameIffOwnResponseRow : Prop :=
  ∀ (c : Config) (f : List Byte),
    validFrame c f = true ↔ ∃ i, decode f = some i ∧ i.isResponse = true ∧ i.wellFormed c = true

/-- All seven command constants satisfy the CRC-8 relation the spec derived from them (30_encoding.md R84). -/
def Obligations.CommandConstantsSatisfyCrc : Prop :=
  ∀ i ∈ ([.pixmode1, .pixmode2, .pixmode4, .outtext, .outbin, .rangeshort, .rangelong] : List Instr),
    some (crc8 ((encode i).take 3)) = (encode i)[3]?

/-- A block can be built exactly for 1, 2 and 4 channels, and then has that `N`, the asked range and variant, and
`L = 2*N + 2` (00_scope.md R5, R6; the refusal of other counts is the spec's decision D3). -/
def Obligations.OnlyThreePixelCountsCanBeBuilt : Prop :=
  ∀ (pixelCount : Nat) (shortRange evw : Bool),
    ((Config.build? pixelCount shortRange evw).isSome = true ↔ pixelCount = 1 ∨ pixelCount = 2 ∨ pixelCount = 4) ∧
    ∀ c, Config.build? pixelCount shortRange evw = some c →
      c.n.toNat = pixelCount ∧ c.range = (if shortRange then .short else .long) ∧ c.evw = evw ∧
        frameLength c = 2 * pixelCount + 2

/-! ## FrameDecoder -/

/-- `DECODE` of a frame of `L` bytes: `N` values, value `i` being `256*f[1+2i] + f[2+2i]` (42_frame_decoder.md R150). -/
def Obligations.DecodedChannelsAreBigEndian : Prop :=
  ∀ (c : Config) (f : List Byte), f.length = frameLength c →
    (decodeFrame c f).length = c.n.toNat ∧
    ∀ i, i < c.n.toNat → ∃ h l v, f[1 + 2 * i]? = some h ∧ f[2 + 2 * i]? = some l ∧
      (decodeFrame c f)[i]? = some v ∧ v.toNat = 256 * h.toNat + l.toNat

/-- The three response formats: what selects them, the values they decode to whatever the trailing byte is, and that the
frame by itself, which executing its row delivers (log 2), writes no state of the block (42_frame_decoder.md R151, R152,
R153). -/
def Obligations.ResponseFormatsDecodeToTheirValues : Prop :=
  (∀ c : Config, c.n = .one →
    (∀ f, validFrame c f = true ↔ f.length = 4 ∧ f.head? = some 0x54) ∧
    ∀ hh ll tt : Byte, (decodeFrame c [0x54, hh, ll, tt]).map BitVec.toNat = [256 * hh.toNat + ll.toNat]) ∧
  (∀ c : Config, c.n = .two →
    (∀ f, validFrame c f = true ↔ f.length = 6 ∧ f.head? = some 0x54) ∧
    ∀ h0 l0 h1 l1 tt : Byte, (decodeFrame c [0x54, h0, l0, h1, l1, tt]).map BitVec.toNat =
      [256 * h0.toNat + l0.toNat, 256 * h1.toNat + l1.toNat]) ∧
  (∀ c : Config, c.n = .four →
    (∀ f, validFrame c f = true ↔ f.length = 10 ∧ f.head? = some 0x54) ∧
    ∀ h0 l0 h1 l1 h2 l2 h3 l3 tt : Byte,
      (decodeFrame c [0x54, h0, l0, h1, l1, h2, l2, h3, l3, tt]).map BitVec.toNat =
        [256 * h0.toNat + l0.toNat, 256 * h1.toNat + l1.toNat, 256 * h2.toNat + l2.toNat,
          256 * h3.toNat + l3.toNat]) ∧
  ∀ (s t : State) (a b c d : Dist) (tt : Byte),
    exec (.resp1 a tt) s = .next t ∨ exec (.resp2 a b tt) s = .next t ∨ exec (.resp4 a b c d tt) s = .next t →
      SameBlock s t

/-- Two frames that differ only in their last byte decode to the same values, and two reads that differ only there leave
the block in the same state (42_frame_decoder.md R155). -/
def Obligations.TrailingByteIsNeverInterpreted : Prop :=
  (∀ (c : Config) (f : List Byte) (x y : Byte), f.length + 1 = frameLength c →
    decodeFrame c (f ++ [x]) = decodeFrame c (f ++ [y])) ∧
  ∀ (s : State) (a : Answers) (f : List Byte) (x y : Byte) (raw : Bool), ∃ t u,
    exec (updateInstr raw) (s.setTransport (.free { a with frame := f ++ [x] })) = .next t ∧
    exec (updateInstr raw) (s.setTransport (.free { a with frame := f ++ [y] })) = .next u ∧
    t.setTransport s.transport = u.setTransport s.transport

/-! ## FrameReader -/

/-- With the event wait the gate is the answer of `T.waitReadable()` alone; without it, `T.avail() ≥ L`, so `L` bytes
pass and `L - 1` do not (41_frame_reader.md R131, R132). -/
def Obligations.GateIsTheQueryOfTheVariant : Prop :=
  ∀ (c : Config) (a : Answers),
    (c.evw = true → gate c (.free a) = a.readable) ∧
    (c.evw = false → (gate c (.free a) = true ↔ frameLength c ≤ a.avail) ∧
      gate c (.free { a with avail := frameLength c }) = true ∧
      gate c (.free { a with avail := frameLength c - 1 }) = false)

/-- While the gate is false an `UPDATE` is an idempotent no-op that consumes nothing (41_frame_reader.md R133). -/
def Obligations.FalseGateIsAnIdempotentNoOp : Prop :=
  ∀ (s : State) (raw : Bool), s.phase = .ready → gate s.cfg s.transport = false →
    tryRead s = (.noData, s) ∧ exec (updateInstr raw) s = .next s

/-- A read that is not a valid frame is dropped whole: the transport has given its bytes, once, and every register and
trace is unchanged (41_frame_reader.md R136). -/
def Obligations.RejectedReadChangesNoRegister : Prop :=
  ∀ (s : State) (raw : Bool), s.phase = .ready → gate s.cfg s.transport = true →
    validFrame s.cfg s.readAnswer.1 = false →
      exec (updateInstr raw) s = .next (s.setTransport s.readAnswer.2)

/-- The five paths of an `UPDATE`, in the order of their tests: the label, what the transport gave, and which cache is
left (44_driver.md R178, 60_exceptions.md R219). The labels are the spec's decision D15, length before header D7, the
no-op in `UNINIT` D11. -/
def Obligations.UpdateTakesOneOfFivePaths : Prop :=
  ∀ (s : State) (raw : Bool),
    exec (updateInstr raw) s = .next (update raw s).2 ∧
    (s.phase ≠ .ready → update raw s = (.notReady, s)) ∧
    (s.phase = .ready → gate s.cfg s.transport = false → update raw s = (.noData, s)) ∧
    (s.phase = .ready → gate s.cfg s.transport = true → s.readAnswer.1.length ≠ frameLength s.cfg →
      update raw s = (.badLength, s.setTransport s.readAnswer.2)) ∧
    (s.phase = .ready → gate s.cfg s.transport = true → s.readAnswer.1.length = frameLength s.cfg →
      s.readAnswer.1.head? ≠ some 0x54 → update raw s = (.badHeader, s.setTransport s.readAnswer.2)) ∧
    (s.phase = .ready → gate s.cfg s.transport = true → s.readAnswer.1.length = frameLength s.cfg →
      s.readAnswer.1.head? = some 0x54 → (update raw s).1 = .applied ∧
        (update raw s).2.transport = s.readAnswer.2)

/-- The reference transport gives at most `L` bytes from the head of its queue: without the event wait exactly `L` or
nothing, with it whatever waits up to `L` (20_memory.md R67; `T_ref` is the spec's decision D9; where `RD_MAX` is below
`L`, log 24). -/
def Obligations.ReferenceTransportGivesOneSizedRead : Prop :=
  ∀ (s : State) (raw p : Bool) (rxq : List Byte), s.phase = .ready → s.transport = .ref p rxq → ∃ t,
    exec (updateInstr raw) s = .next t ∧ SameControl s t ∧ SameTraces s t ∧ SameInputs s t ∧
    (s.cfg.evw = false → t.transport = .ref p (if frameLength s.cfg ≤ rxq.length then rxq.drop (frameLength s.cfg) else rxq)) ∧
    (s.cfg.evw = true → t.transport = .ref p (rxq.drop (frameLength s.cfg)))

/-- A stream that is off by some bytes stays off: `m` updates against a queue of at least `m` frames' bytes take
exactly the first `m * L` bytes, whatever they hold and whichever the transport variant (70_reset_and_hazards.md R246;
`T_ref` is the spec's decision D9; where `RD_MAX` is below `L`, log 24). -/
def Obligations.MisalignedStreamStaysMisaligned : Prop :=
  ∀ (modes : List Bool) (s : State) (p : Bool) (rxq : List Byte) (rest : List Input),
    s.phase = .ready → s.transport = .ref p rxq →
    modes.length * frameLength s.cfg ≤ rxq.length →
    s.inputs = modes.map (fun raw => .word (encode (updateInstr raw))) ++ rest → ∃ t,
      RunsTo modes.length s t ∧ t.transport = .ref p (rxq.drop (modes.length * frameLength s.cfg)) ∧
      SameControl s t ∧ SameTraces s t ∧ t.inputs = rest

/-! ## ValidityTracker -/

/-- An applied raw update stores every decoded value and leaves every counter (43_validity_tracker.md R162,
10_state.md R29); nothing else changes but the transport, which gave the frame. -/
def Obligations.RawUpdateStoresEveryValue : Prop :=
  ∀ s : State, s.CacheSized → s.FrameAccepted → ∃ t,
    exec .updateRaw s = .next t ∧ t.dist = decodeFrame s.cfg s.readAnswer.1 ∧ t.inv = s.inv ∧
    t.transport = s.readAnswer.2 ∧ SameControl s t ∧ SameTraces s t ∧ SameInputs s t

/-- An applied filtered update, channel by channel: `0x0001` leaves the distance and adds 1 to the counter (below the top
of its range), every other value, the range sentinels included, is stored and clears the counter
(43_validity_tracker.md R163, R164); nothing else changes but the transport, which gave the frame. -/
def Obligations.FilteredUpdateTracksEachChannel : Prop :=
  ∀ s : State, s.CacheSized → s.FrameAccepted → ∃ t,
    exec .updateFlt s = .next t ∧ t.CacheSized ∧
    t.transport = s.readAnswer.2 ∧ SameControl s t ∧ SameTraces s t ∧ SameInputs s t ∧
    ∀ (i : Nat) (v d : Dist) (k : Count), (decodeFrame s.cfg s.readAnswer.1)[i]? = some v →
      s.dist[i]? = some d → s.inv[i]? = some k →
      (v = 0x0001 → t.dist[i]? = some d ∧
        (k.toNat < 4294967295 → ∃ k', t.inv[i]? = some k' ∧ k'.toNat = k.toNat + 1)) ∧
      (v ≠ 0x0001 → t.dist[i]? = some v ∧ t.inv[i]? = some 0)

/-- At the top of its range a counter stays there on a further invalid reading (43_validity_tracker.md R166, the spec's
own decision D6; log 10). -/
def Obligations.CounterSaturatesAtTheTop : Prop :=
  ∀ (s : State) (i : Nat) (d : Dist), s.FrameAccepted →
    (decodeFrame s.cfg s.readAnswer.1)[i]? = some 0x0001 → s.dist[i]? = some d →
    s.inv[i]? = some 0xFFFFFFFF → ∃ t,
      exec .updateFlt s = .next t ∧ t.inv[i]? = some 0xFFFFFFFF ∧ t.dist[i]? = some d

/-- A channel after an applied update depends on its own registers and its own decoded value alone
(43_validity_tracker.md R167): two blocks that agree on channel `i` agree on it afterwards. -/
def Obligations.ChannelsDoNotInteract : Prop :=
  ∀ (s u : State) (raw : Bool) (i : Nat), s.FrameAccepted → u.FrameAccepted →
    s.dist[i]? = u.dist[i]? → s.inv[i]? = u.inv[i]? →
    (decodeFrame s.cfg s.readAnswer.1)[i]? = (decodeFrame u.cfg u.readAnswer.1)[i]? → ∃ s' u',
      exec (updateInstr raw) s = .next s' ∧ exec (updateInstr raw) u = .next u' ∧
      s'.dist[i]? = u'.dist[i]? ∧ s'.inv[i]? = u'.inv[i]?

/-- After an applied filtered update a counter is 0 exactly when its channel's reading was not the invalid code
(10_state.md R28; at the top of the range by the spec's decision D6). -/
def Obligations.FilteredCounterIsZeroIffReadingValid : Prop :=
  ∀ s : State, s.CacheSized → s.FrameAccepted → ∃ t, exec .updateFlt s = .next t ∧
    ∀ (i : Nat) (v : Dist), (decodeFrame s.cfg s.readAnswer.1)[i]? = some v →
      (t.inv[i]? = some 0 ↔ v ≠ 0x0001)

/-- A run of filtered updates over frames that are all invalid on channel `i` counts exactly their number and holds the
distance, as long as the counter stays within its range, whichever the transport variant (43_validity_tracker.md R163,
R166; `T_ref` is the spec's decision D9; where `RD_MAX` is below `L`, log 24). -/
def Obligations.InvalidRunIsCountedExactly : Prop :=
  ∀ (frames : List (List Byte)) (s : State) (p : Bool) (tail : List Byte) (rest : List Input) (i : Nat) (k : Count),
    s.CacheSized → s.phase = .ready → s.transport = .ref p (frames.flatten ++ tail) →
    (∀ f ∈ frames, validFrame s.cfg f = true ∧ (decodeFrame s.cfg f)[i]? = some 0x0001) →
    s.inv[i]? = some k → k.toNat + frames.length ≤ 4294967295 →
    s.inputs = List.replicate frames.length (.word [0x02]) ++ rest → ∃ t k',
      RunsTo frames.length s t ∧ t.inv[i]? = some k' ∧ k'.toNat = k.toNat + frames.length ∧
      t.dist[i]? = s.dist[i]? ∧ t.transport = .ref p tail ∧ t.CacheSized ∧ SameControl s t ∧ SameTraces s t ∧
      t.inputs = rest

/-- After any number of invalid readings on a channel one valid reading `v` makes its distance `v` and its counter 0,
whichever the transport variant (43_validity_tracker.md R164; `T_ref` is the spec's decision D9; where `RD_MAX` is below
`L`, log 24). -/
def Obligations.ValidReadingEndsAnInvalidRun : Prop :=
  ∀ (frames : List (List Byte)) (g : List Byte) (s : State) (p : Bool) (tail : List Byte) (rest : List Input)
    (i : Nat) (v : Dist),
    s.CacheSized → s.phase = .ready → s.transport = .ref p (frames.flatten ++ (g ++ tail)) →
    (∀ f ∈ frames, validFrame s.cfg f = true ∧ (decodeFrame s.cfg f)[i]? = some 0x0001) →
    validFrame s.cfg g = true → (decodeFrame s.cfg g)[i]? = some v → v ≠ 0x0001 →
    s.inputs = List.replicate (frames.length + 1) (.word [0x02]) ++ rest → ∃ t,
      RunsTo (frames.length + 1) s t ∧ t.dist[i]? = some v ∧ t.inv[i]? = some 0 ∧ t.transport = .ref p tail ∧
      t.inputs = rest

/-- The sentinel codes and what they change: only `0x0001`, and only in filtered mode, is treated specially by the
tracker (30_encoding.md R88). -/
def Obligations.OnlyTheInvalidCodeIsSpecial : Prop :=
  ∀ (v d : Dist) (k : Count),
    (readingOf v = .belowMinimum ↔ v = 0x0000) ∧ (readingOf v = .aboveMaximum ↔ v = 0xFFFF) ∧
    (readingOf v = .invalid ↔ v = 0x0001) ∧
    (readingOf v = .distance ↔ v ≠ 0x0000 ∧ v ≠ 0xFFFF ∧ v ≠ 0x0001) ∧
    trackDist true v d = v ∧ trackInv true v k = k ∧
    (v ≠ 0x0001 → trackDist false v d = v ∧ trackInv false v k = 0) ∧ trackDist false 0x0001 d = d

/-! ## ProtocolEncoder -/

/-- The seven command frames. In the Configuring stage a frame that the block's `N` and `RANGE` select is handed to
`T.write`, its bytes as in the table, and nothing else changes; the text-mode frame is never sent; outside that stage no
frame is sent (40_protocol_encoder.md R111 to R117, R119, R120, R123). The stage as a guard is the model's choice
(log 3). -/
def Obligations.CommandFramesAreSentWhenSelected : Prop :=
  ∀ s : State,
    (s.configuring = true →
      exec .pixmode1 s = .next (if s.cfg.n = .one then s.write [0x00, 0x21, 0x01, 0xBC] else s) ∧
      exec .pixmode2 s = .next (if s.cfg.n = .two then s.write [0x00, 0x21, 0x03, 0xB2] else s) ∧
      exec .pixmode4 s = .next (if s.cfg.n = .four then s.write [0x00, 0x21, 0x02, 0xB5] else s) ∧
      exec .outbin s = .next (s.write [0x00, 0x11, 0x02, 0x4C]) ∧
      exec .rangeshort s = .next (if s.cfg.range = .short then s.write [0x00, 0x61, 0x01, 0xE7] else s) ∧
      exec .rangelong s = .next (if s.cfg.range = .long then s.write [0x00, 0x61, 0x03, 0xE9] else s)) ∧
    (s.configuring = false →
      exec .pixmode1 s = .next s ∧ exec .pixmode2 s = .next s ∧ exec .pixmode4 s = .next s ∧
      exec .outbin s = .next s ∧ exec .rangeshort s = .next s ∧ exec .rangelong s = .next s) ∧
    exec .outtext s = .next s

/-- The text-mode frame is held in the table and never sent: executing it changes nothing, and no run from a sound state
has its bytes in `tx` (40_protocol_encoder.md R114; what executing a command row by itself does is DEDUCED, log 3). -/
def Obligations.TextModeFrameIsNeverSent : Prop :=
  encode .outtext = [0x00, 0x11, 0x01, 0x45] ∧
  (∀ s : State, exec .outtext s = .next s) ∧
  ∀ (k : Nat) (s t : State), s.Sound → RunsTo k s t → ¬ ([0x00, 0x11, 0x01, 0x45] : List Byte) <:+: t.tx

/-- No instruction other than `CONSTRUCT` writes to the transport, outside the Configuring stage (log 3); a `CONSTRUCT`
that finds no transport sends nothing; and the state a `CONSTRUCT` leaves admits no `CONSTRUCT` (40_protocol_encoder.md
R123, 44_driver.md R183, the spec's decision D12). -/
def Obligations.OnlyConstructSends : Prop :=
  (∀ (i : Instr) (s t : State), s.configuring = false → exec i s = .next t → i ≠ .construct → t.tx = s.tx) ∧
  (∀ s t : State, exec .construct s = .next t → tPresent s.transport = false → t.tx = s.tx) ∧
  ∀ s t u : State, exec .construct s = .next t → exec .construct t ≠ .next u

/-! ## Driver -/

/-- `CONSTRUCT` with a transport: exactly the three frames in order, chosen by `N` and `RANGE`, are appended to `tx`, and
the block is `READY`; no cache register changes (40_protocol_encoder.md R118, R119, R120). -/
def Obligations.ConstructSendsThreeFramesInOrder : Prop :=
  ∀ s : State, s.phase = .uninit → tPresent s.transport = true → ∃ t,
    exec .construct s = .next t ∧
    t.tx = s.tx ++
      ((match s.cfg.n with
        | .one => [0x00, 0x21, 0x01, 0xBC]
        | .two => [0x00, 0x21, 0x03, 0xB2]
        | .four => [0x00, 0x21, 0x02, 0xB5] : List Byte) ++ ([0x00, 0x11, 0x02, 0x4C] : List Byte) ++
       (match s.cfg.range with
        | .short => [0x00, 0x61, 0x01, 0xE7]
        | .long => [0x00, 0x61, 0x03, 0xE9] : List Byte)) ∧
    t.phase = .ready ∧ t.ready = true ∧ SameCache s t ∧ t.cfg = s.cfg

/-- The frame of a `CONSTRUCT` with a transport: it reads nothing and flushes nothing (44_driver.md R172, the spec's
decision D23), leaves "Configuring" again (log 3), returns nothing, and notes no failure. -/
def Obligations.ConstructLeavesTheReceiveStream : Prop :=
  ∀ s t : State, tPresent s.transport = true → exec .construct s = .next t →
    t.transport = s.transport ∧ t.configuring = false ∧ t.replies = s.replies ∧ SameInputs s t ∧ SameCache s t ∧
    t.notes.count .transportUnavailable = s.notes.count .transportUnavailable

/-- `CONSTRUCT` is its three frames run one after another in the Configuring stage: the command frames' own meanings, in
order, make up the operation (44_driver.md R170, R172, 40_protocol_encoder.md R118). -/
def Obligations.ConstructRunsTheCommandFrames : Prop :=
  ∀ s : State, s.phase = .uninit → tPresent s.transport = true → ∃ s1 s2 s3 t,
    exec (pixcmd s.cfg.n) (s.setConfiguring true) = .next s1 ∧ exec .outbin s1 = .next s2 ∧
    exec (rangecmd s.cfg.range) s2 = .next s3 ∧ exec .construct s = .next t ∧
    t = (s3.setConfiguring false).setPhase .ready ∧ s3.tx.length = s.tx.length + 12

/-- `CONSTRUCT` without a transport: not ready, one notification, nothing sent, nothing else changed, and every later
`UPDATE` is a no-op (44_driver.md R173). -/
def Obligations.ConstructWithoutTransportFails : Prop :=
  ∀ s : State, s.phase = .uninit → tPresent s.transport = false → ∃ t,
    exec .construct s = .next t ∧ t.phase = .failed ∧ t.ready = false ∧
    t.notes = s.notes ++ [.transportUnavailable] ∧ t.tx = s.tx ∧ SameCache s t ∧ t.transport = s.transport ∧
    t.cfg = s.cfg ∧ t.configuring = s.configuring ∧ t.replies = s.replies ∧ SameInputs s t ∧
    ∀ raw, exec (updateInstr raw) t = .next t

/-- While `ready` is false an `UPDATE` does nothing at all: nothing is asked, read or written (44_driver.md R177; in
`UNINIT` by the spec's decision D11). -/
def Obligations.UpdateWhileNotReadyDoesNothing : Prop :=
  ∀ (s : State) (raw : Bool), s.phase ≠ .ready → exec (updateInstr raw) s = .next s

/-- The accessors return the `N` registers, zero-extended, channel 0 first, in every phase, and write nothing
(44_driver.md R179, R180; outside `READY` by the spec's decision D13; the trace of what was returned is the model's,
log 6). -/
def Obligations.AccessorsReturnTheCache : Prop :=
  ∀ s : State, s.CacheSized → ∃ ds ks,
    exec .distance s = .next (s.reply (.distances ds)) ∧ exec .invalids s = .next (s.reply (.counts ks)) ∧
    ds.length = s.cfg.n.toNat ∧ ks.length = s.cfg.n.toNat ∧
    (∀ (i : Nat) (d : Dist), s.dist[i]? = some d → ds[i]? = some d.toNat) ∧
    (∀ (i : Nat) (k : Count), s.inv[i]? = some k → ks[i]? = some k.toNat) ∧
    (∀ n ∈ ds, n ≤ 65535) ∧ (∀ n ∈ ks, n ≤ 4294967295)

/-- `TEARDOWN` from `READY` releases the transport and clears the ready flag; from `FAILED` (the spec's decision D12)
there is none to release; the cache stays readable and nothing is sent (44_driver.md R181). That `T_ref` becomes absent
and keeps its queue is 20_memory.md R67 (the spec's decision D9) and log 16; R181 leaves waiting bytes to the
transport. -/
def Obligations.TeardownClosesAndKeepsTheCache : Prop :=
  ∀ s : State,
    (s.phase = .ready → ∃ t, exec .teardown s = .next t ∧ t.phase = .closed ∧ t.ready = false ∧
      t.transport = tRelease s.transport ∧ (∀ p q, s.transport = .ref p q → t.transport = .ref false q) ∧
      SameCache s t ∧ SameTraces s t ∧ SameInputs s t ∧ t.cfg = s.cfg ∧ t.configuring = s.configuring) ∧
    (s.phase = .failed → ∃ t, exec .teardown s = .next t ∧ t.phase = .closed ∧ t.ready = false ∧
      t.transport = s.transport ∧ SameCache s t ∧ SameTraces s t ∧ SameInputs s t ∧ t.cfg = s.cfg ∧
      t.configuring = s.configuring)

/-- The combinations to which the spec gives no meaning (44_driver.md R183, its decision D12) are refused by name. -/
def Obligations.OperationsOutsideTheirPhaseAreRefused : Prop :=
  ∀ s : State,
    (s.phase ≠ .uninit → exec .construct s = .refused .constructOutsideUninit) ∧
    (s.phase = .uninit → exec .teardown s = .refused .teardownBeforeConstruct) ∧
    (s.phase = .closed → exec .teardown s = .refused .teardownAfterTeardown)

/-- The ready flag is true exactly in `READY`: set by a `CONSTRUCT` that finds the transport present, left false by one
that does not, cleared by `TEARDOWN`, false at reset, and no `UPDATE` does anything while it is false
(10_state.md R24). -/
def Obligations.ReadyFlagFollowsTheLifecycle : Prop :=
  (∀ s : State, s.ready = true ↔ s.phase = .ready) ∧
  (∀ s t : State, exec .construct s = .next t → t.ready = tPresent s.transport) ∧
  (∀ s t : State, exec .teardown s = .next t → t.ready = false) ∧
  (∀ (s : State) (raw : Bool), s.ready = false → exec (updateInstr raw) s = .next s) ∧
  State.reset.ready = false

/-! ## Whole-machine rules -/

/-- The transition table of the lifecycle register (44_driver.md R171; the rows outside what the document states are the
spec's decisions D11, D12, D13). -/
def Obligations.PhaseTransitionsFollowTheTable : Prop :=
  ∀ (i : Instr) (s t : State), exec i s = .next t →
    (i = .construct → s.phase = .uninit ∧ t.phase = if tPresent s.transport then .ready else .failed) ∧
    (i = .teardown → (s.phase = .ready ∨ s.phase = .failed) ∧ t.phase = .closed) ∧
    (i ≠ .construct → i ≠ .teardown → t.phase = s.phase)

/-- The cache is written only inside `update()` (10_state.md R30). -/
def Obligations.OnlyUpdatesWriteTheCache : Prop :=
  ∀ (i : Instr) (s t : State), exec i s = .next t → i ≠ .updateRaw → i ≠ .updateFlt → SameCache s t

/-- Counters move only under filtered updates (10_state.md R22, R29). -/
def Obligations.OnlyFilteredUpdatesWriteTheCounters : Prop :=
  ∀ (i : Instr) (s t : State), s.CacheSized → exec i s = .next t → i ≠ .updateFlt → t.inv = s.inv

/-- No step changes the parameters, the expected length, or what the host does next (20_memory.md R71). -/
def Obligations.ParametersAndProgramAreFixed : Prop :=
  ∀ s t : State, step s = .next t →
    t.cfg = s.cfg ∧ frameLength t.cfg = frameLength s.cfg ∧ t.inputs = s.inputs.tail

/-- There are `N` registers of each kind at all times, and each accessor returns `N` values (10_state.md R27). -/
def Obligations.CacheLengthIsAlwaysN : Prop :=
  ∀ (k : Nat) (s t : State), s.CacheSized → RunsTo k s t →
    t.CacheSized ∧ t.cfg = s.cfg ∧
    ∃ ds ks, exec .distance t = .next (t.reply (.distances ds)) ∧ ds.length = s.cfg.n.toNat ∧
      exec .invalids t = .next (t.reply (.counts ks)) ∧ ks.length = s.cfg.n.toNat

/-- `CLOSED` is terminal: only a hardware reset leaves it (44_driver.md R171, 70_reset_and_hazards.md R240; that there is
a reset is the spec's decision D10). In `CLOSED` no step changes the cache. -/
def Obligations.OnlyResetLeavesClosed : Prop :=
  ∀ s t : State, s.phase = .closed → (∀ rest, s.inputs ≠ .reset :: rest) → step s = .next t →
    t.phase = .closed ∧ SameCache s t

/-- A hardware reset puts every register and trace at its reset value in every phase and touches neither the transport
nor the parameters (10_state.md R35, 70_reset_and_hazards.md R240; the values are the spec's decisions D4, D5, the reset
itself D10). -/
def Obligations.HardwareResetRestoresResetValues : Prop :=
  (∀ (s : State) (rest : List Input), s.inputs = .reset :: rest → ∃ t, step s = .next t ∧
    t.phase = .uninit ∧ t.ready = false ∧ t.configuring = false ∧
    t.dist = List.replicate s.cfg.n.toNat 0x0000 ∧ t.inv = List.replicate s.cfg.n.toNat 0 ∧
    t.tx = [] ∧ t.notes = [] ∧ t.replies = [] ∧ t.transport = s.transport ∧ t.cfg = s.cfg ∧ t.inputs = rest) ∧
  State.reset.phase = .uninit ∧ State.reset.dist = List.replicate State.reset.cfg.n.toNat 0x0000 ∧
  State.reset.inv = List.replicate State.reset.cfg.n.toNat 0 ∧ State.reset.tx = [] ∧ State.reset.notes = []

/-- The state after reset is sound, for every block and every transport within its bounds (10_state.md R35). -/
def Obligations.ResetStateIsSound : Prop :=
  State.reset.Sound ∧
  ∀ (c : Config) (t : Transport) (inputs : List Input), tWithinBounds c t = true → (State.resetWith c t inputs).Sound

/-- Every step keeps soundness: `N` registers of each kind, never between stages of `CONSTRUCT`, and phase, traces,
notification and cache in agreement (10_state.md R23, R27, 40_protocol_encoder.md R118, R123, 44_driver.md R171, R182;
bounds of the transport: log 14). -/
def Obligations.EveryStepKeepsSoundness : Prop := ∀ s t : State, s.Sound → step s = .next t → t.Sound

/-! ## Steps, streams and runs -/

/-- A step on a word that decodes is that instruction's meaning, with the word taken off the inputs (00_scope.md R11,
20_memory.md R58; the inputs are the model's, log 1). -/
def Obligations.StepRunsTheDecodedInstruction : Prop :=
  (∀ (s : State) (bytes : List Byte) (rest : List Input) (i : Instr), s.inputs = .word bytes :: rest →
    decode bytes = some i → step s = exec i (s.setInputs rest)) ∧
  ∀ (s : State) (nbits w : Nat) (i : Instr), decodeTableWord nbits w = some i →
    step (s.withFetchWord nbits w) = exec i s

/-- The block acts only on the host's operations: with no input it is idle, and what the sensor delivers or the
transport changes touches no register or trace of the block (60_exceptions.md R217, 20_memory.md R68); a change beyond
`RD_MAX` or `RXQ_DEPTH` is refused (log 14). What a change may be is the model's choice (log 23). -/
def Obligations.BlockActsOnlyOnHostOperations : Prop :=
  (∀ s : State, s.inputs = [] → step s = .next s) ∧
  (∀ (s t : State) (bytes : List Byte) (rest : List Input), s.inputs = .rx bytes :: rest → step s = .next t →
    SameBlock (s.setInputs rest) t) ∧
  ∀ (s : State) (change : Transport) (rest : List Input), s.inputs = .transport change :: rest →
    (tWithinBounds s.cfg change = true →
      ∃ t, step s = .next t ∧ SameBlock (s.setInputs rest) t ∧ t.transport = change) ∧
    (tWithinBounds s.cfg change = false → step s = .refused .transportBeyondBounds)

/-- Bytes the sensor delivers join the end of the reference transport's queue in order, and the three response frames are
such deliveries of their own bytes (20_memory.md R67, 30_encoding.md R86, R95; `T_ref` is the spec's decision D9, the
frame rows as deliveries are the model's choice, log 2). Beyond `RXQ_DEPTH` the run is refused (93_implementation_defined.md
U16; whole and by name, the model's choice, log 14). An absent `T_ref`, as release leaves it, still takes bytes
(log 16). -/
def Obligations.DeliveriesJoinTheReceiveQueue : Prop :=
  ∀ (s : State) (p : Bool) (rxq : List Byte), s.transport = .ref p rxq →
    (∀ (bytes : List Byte) (rest : List Input), s.inputs = .rx bytes :: rest →
      (withinBound (rxq.length + bytes.length) s.cfg.rxqDepth = true →
        step s = .next ((s.setInputs rest).setTransport (.ref p (rxq ++ bytes)))) ∧
      (withinBound (rxq.length + bytes.length) s.cfg.rxqDepth = false →
        step s = .refused .receiveQueueOverflow)) ∧
    ∀ i : Instr, i.isResponse = true →
      (withinBound (rxq.length + i.byteLength) s.cfg.rxqDepth = true →
        exec i s = .next (s.setTransport (.ref p (rxq ++ encode i)))) ∧
      (withinBound (rxq.length + i.byteLength) s.cfg.rxqDepth = false →
        exec i s = .refused .receiveQueueOverflow)

/-- On the open transport a response frame always completes and changes nothing of the block; no law ties the free
answers to it (20_memory.md R65, the spec's decision D8; log 2). -/
def Obligations.ResponseFrameOnOpenTransportCompletes : Prop :=
  ∀ (s : State) (a : Answers) (i : Instr), s.transport = .free a → i.isResponse = true →
    ∃ t, exec i s = .next t ∧ SameBlock s t

/-- From the sensor to the host: a response frame of the block's own `N`, delivered to an empty reference transport of a
`READY` block, a raw update and the accessor: the cache and the returned sequence are the frame's values, whichever the
transport variant (20_memory.md R59, R67, 42_frame_decoder.md R151 to R153, 44_driver.md R175, R179; `T_ref` is the spec's decision
D9; the frame as a delivery is log 2, the trace of replies log 6, `RD_MAX` below `L` log 24). -/
def Obligations.DeliveredFrameReachesTheHost : Prop :=
  ∀ (s : State) (i : Instr) (p : Bool) (rest : List Input), s.Sound → s.phase = .ready →
    s.transport = .ref p [] → withinBound i.byteLength s.cfg.rxqDepth = true →
    i.isResponse = true → i.wellFormed s.cfg = true →
    s.inputs = .word (encode i) :: .word [0x03] :: .word [0x04] :: rest → ∃ t,
      RunsTo 3 s t ∧ t.dist = i.values ∧ t.inv = s.inv ∧ t.transport = .ref p [] ∧ t.phase = .ready ∧
      t.replies = s.replies ++ [.distances (i.values.map BitVec.toNat)] ∧ t.inputs = rest
end

