-- ==== Sys2Proof/Laws/State.lean ====
section
/-!
SUPPORT. One lemma per field per named update of the state, all true by definition, so that no later proof unfolds a
record update.
-/

namespace Sys2Proof.Machine

variable (s : State)

@[simp] theorem setPhase_cfg (p : Phase) : (s.setPhase p).cfg = s.cfg := rfl
@[simp] theorem setPhase_phase (p : Phase) : (s.setPhase p).phase = p := rfl
@[simp] theorem setPhase_configuring (p : Phase) : (s.setPhase p).configuring = s.configuring := rfl
@[simp] theorem setPhase_dist (p : Phase) : (s.setPhase p).dist = s.dist := rfl
@[simp] theorem setPhase_inv (p : Phase) : (s.setPhase p).inv = s.inv := rfl
@[simp] theorem setPhase_transport (p : Phase) : (s.setPhase p).transport = s.transport := rfl
@[simp] theorem setPhase_tx (p : Phase) : (s.setPhase p).tx = s.tx := rfl
@[simp] theorem setPhase_notes (p : Phase) : (s.setPhase p).notes = s.notes := rfl
@[simp] theorem setPhase_replies (p : Phase) : (s.setPhase p).replies = s.replies := rfl
@[simp] theorem setPhase_inputs (p : Phase) : (s.setPhase p).inputs = s.inputs := rfl
@[simp] theorem setPhase_ready (p : Phase) : (s.setPhase p).ready = decide (p = .ready) := rfl

@[simp] theorem setConfiguring_cfg (b : Bool) : (s.setConfiguring b).cfg = s.cfg := rfl
@[simp] theorem setConfiguring_phase (b : Bool) : (s.setConfiguring b).phase = s.phase := rfl
@[simp] theorem setConfiguring_configuring (b : Bool) : (s.setConfiguring b).configuring = b := rfl
@[simp] theorem setConfiguring_dist (b : Bool) : (s.setConfiguring b).dist = s.dist := rfl
@[simp] theorem setConfiguring_inv (b : Bool) : (s.setConfiguring b).inv = s.inv := rfl
@[simp] theorem setConfiguring_transport (b : Bool) : (s.setConfiguring b).transport = s.transport := rfl
@[simp] theorem setConfiguring_tx (b : Bool) : (s.setConfiguring b).tx = s.tx := rfl
@[simp] theorem setConfiguring_notes (b : Bool) : (s.setConfiguring b).notes = s.notes := rfl
@[simp] theorem setConfiguring_replies (b : Bool) : (s.setConfiguring b).replies = s.replies := rfl
@[simp] theorem setConfiguring_inputs (b : Bool) : (s.setConfiguring b).inputs = s.inputs := rfl
@[simp] theorem setConfiguring_ready (b : Bool) : (s.setConfiguring b).ready = s.ready := rfl

@[simp] theorem setCache_cfg (d : List Dist) (k : List Count) : (s.setCache d k).cfg = s.cfg := rfl
@[simp] theorem setCache_phase (d : List Dist) (k : List Count) : (s.setCache d k).phase = s.phase := rfl
@[simp] theorem setCache_configuring (d : List Dist) (k : List Count) : (s.setCache d k).configuring = s.configuring := rfl
@[simp] theorem setCache_dist (d : List Dist) (k : List Count) : (s.setCache d k).dist = d := rfl
@[simp] theorem setCache_inv (d : List Dist) (k : List Count) : (s.setCache d k).inv = k := rfl
@[simp] theorem setCache_transport (d : List Dist) (k : List Count) : (s.setCache d k).transport = s.transport := rfl
@[simp] theorem setCache_tx (d : List Dist) (k : List Count) : (s.setCache d k).tx = s.tx := rfl
@[simp] theorem setCache_notes (d : List Dist) (k : List Count) : (s.setCache d k).notes = s.notes := rfl
@[simp] theorem setCache_replies (d : List Dist) (k : List Count) : (s.setCache d k).replies = s.replies := rfl
@[simp] theorem setCache_inputs (d : List Dist) (k : List Count) : (s.setCache d k).inputs = s.inputs := rfl
@[simp] theorem setCache_ready (d : List Dist) (k : List Count) : (s.setCache d k).ready = s.ready := rfl

@[simp] theorem setTransport_cfg (t : Transport) : (s.setTransport t).cfg = s.cfg := rfl
@[simp] theorem setTransport_phase (t : Transport) : (s.setTransport t).phase = s.phase := rfl
@[simp] theorem setTransport_configuring (t : Transport) : (s.setTransport t).configuring = s.configuring := rfl
@[simp] theorem setTransport_dist (t : Transport) : (s.setTransport t).dist = s.dist := rfl
@[simp] theorem setTransport_inv (t : Transport) : (s.setTransport t).inv = s.inv := rfl
@[simp] theorem setTransport_transport (t : Transport) : (s.setTransport t).transport = t := rfl
@[simp] theorem setTransport_tx (t : Transport) : (s.setTransport t).tx = s.tx := rfl
@[simp] theorem setTransport_notes (t : Transport) : (s.setTransport t).notes = s.notes := rfl
@[simp] theorem setTransport_replies (t : Transport) : (s.setTransport t).replies = s.replies := rfl
@[simp] theorem setTransport_inputs (t : Transport) : (s.setTransport t).inputs = s.inputs := rfl
@[simp] theorem setTransport_ready (t : Transport) : (s.setTransport t).ready = s.ready := rfl

@[simp] theorem write_cfg (bs : List Byte) : (s.write bs).cfg = s.cfg := rfl
@[simp] theorem write_phase (bs : List Byte) : (s.write bs).phase = s.phase := rfl
@[simp] theorem write_configuring (bs : List Byte) : (s.write bs).configuring = s.configuring := rfl
@[simp] theorem write_dist (bs : List Byte) : (s.write bs).dist = s.dist := rfl
@[simp] theorem write_inv (bs : List Byte) : (s.write bs).inv = s.inv := rfl
@[simp] theorem write_transport (bs : List Byte) : (s.write bs).transport = s.transport := rfl
@[simp] theorem write_tx (bs : List Byte) : (s.write bs).tx = s.tx ++ bs := rfl
@[simp] theorem write_notes (bs : List Byte) : (s.write bs).notes = s.notes := rfl
@[simp] theorem write_replies (bs : List Byte) : (s.write bs).replies = s.replies := rfl
@[simp] theorem write_inputs (bs : List Byte) : (s.write bs).inputs = s.inputs := rfl
@[simp] theorem write_ready (bs : List Byte) : (s.write bs).ready = s.ready := rfl

@[simp] theorem emit_cfg (e : Note) : (s.emit e).cfg = s.cfg := rfl
@[simp] theorem emit_phase (e : Note) : (s.emit e).phase = s.phase := rfl
@[simp] theorem emit_configuring (e : Note) : (s.emit e).configuring = s.configuring := rfl
@[simp] theorem emit_dist (e : Note) : (s.emit e).dist = s.dist := rfl
@[simp] theorem emit_inv (e : Note) : (s.emit e).inv = s.inv := rfl
@[simp] theorem emit_transport (e : Note) : (s.emit e).transport = s.transport := rfl
@[simp] theorem emit_tx (e : Note) : (s.emit e).tx = s.tx := rfl
@[simp] theorem emit_notes (e : Note) : (s.emit e).notes = s.notes ++ [e] := rfl
@[simp] theorem emit_replies (e : Note) : (s.emit e).replies = s.replies := rfl
@[simp] theorem emit_inputs (e : Note) : (s.emit e).inputs = s.inputs := rfl
@[simp] theorem emit_ready (e : Note) : (s.emit e).ready = s.ready := rfl

@[simp] theorem reply_cfg (r : Reply) : (s.reply r).cfg = s.cfg := rfl
@[simp] theorem reply_phase (r : Reply) : (s.reply r).phase = s.phase := rfl
@[simp] theorem reply_configuring (r : Reply) : (s.reply r).configuring = s.configuring := rfl
@[simp] theorem reply_dist (r : Reply) : (s.reply r).dist = s.dist := rfl
@[simp] theorem reply_inv (r : Reply) : (s.reply r).inv = s.inv := rfl
@[simp] theorem reply_transport (r : Reply) : (s.reply r).transport = s.transport := rfl
@[simp] theorem reply_tx (r : Reply) : (s.reply r).tx = s.tx := rfl
@[simp] theorem reply_notes (r : Reply) : (s.reply r).notes = s.notes := rfl
@[simp] theorem reply_replies (r : Reply) : (s.reply r).replies = s.replies ++ [r] := rfl
@[simp] theorem reply_inputs (r : Reply) : (s.reply r).inputs = s.inputs := rfl
@[simp] theorem reply_ready (r : Reply) : (s.reply r).ready = s.ready := rfl

@[simp] theorem setInputs_cfg (is : List Input) : (s.setInputs is).cfg = s.cfg := rfl
@[simp] theorem setInputs_phase (is : List Input) : (s.setInputs is).phase = s.phase := rfl
@[simp] theorem setInputs_configuring (is : List Input) : (s.setInputs is).configuring = s.configuring := rfl
@[simp] theorem setInputs_dist (is : List Input) : (s.setInputs is).dist = s.dist := rfl
@[simp] theorem setInputs_inv (is : List Input) : (s.setInputs is).inv = s.inv := rfl
@[simp] theorem setInputs_transport (is : List Input) : (s.setInputs is).transport = s.transport := rfl
@[simp] theorem setInputs_tx (is : List Input) : (s.setInputs is).tx = s.tx := rfl
@[simp] theorem setInputs_notes (is : List Input) : (s.setInputs is).notes = s.notes := rfl
@[simp] theorem setInputs_replies (is : List Input) : (s.setInputs is).replies = s.replies := rfl
@[simp] theorem setInputs_inputs (is : List Input) : (s.setInputs is).inputs = is := rfl
@[simp] theorem setInputs_ready (is : List Input) : (s.setInputs is).ready = s.ready := rfl

@[simp] theorem resetWith_cfg (c : Config) (t : Transport) (is : List Input) : (State.resetWith c t is).cfg = c := rfl
@[simp] theorem resetWith_phase (c : Config) (t : Transport) (is : List Input) : (State.resetWith c t is).phase = .uninit := rfl
@[simp] theorem resetWith_configuring (c : Config) (t : Transport) (is : List Input) : (State.resetWith c t is).configuring = false := rfl
@[simp] theorem resetWith_dist (c : Config) (t : Transport) (is : List Input) : (State.resetWith c t is).dist = List.replicate c.n.toNat distReset := rfl
@[simp] theorem resetWith_inv (c : Config) (t : Transport) (is : List Input) : (State.resetWith c t is).inv = List.replicate c.n.toNat invReset := rfl
@[simp] theorem resetWith_transport (c : Config) (t : Transport) (is : List Input) : (State.resetWith c t is).transport = t := rfl
@[simp] theorem resetWith_tx (c : Config) (t : Transport) (is : List Input) : (State.resetWith c t is).tx = [] := rfl
@[simp] theorem resetWith_notes (c : Config) (t : Transport) (is : List Input) : (State.resetWith c t is).notes = [] := rfl
@[simp] theorem resetWith_replies (c : Config) (t : Transport) (is : List Input) : (State.resetWith c t is).replies = [] := rfl
@[simp] theorem resetWith_inputs (c : Config) (t : Transport) (is : List Input) : (State.resetWith c t is).inputs = is := rfl

/-- The ready flag and the phase are one fact (10_state.md R24). -/
theorem ready_iff : s.ready = true ↔ s.phase = .ready := by simp [State.ready]

end Sys2Proof.Machine
end

