-- ==== Sys2Proof/Laws/Encoder.lean ====
section
/-!
SUPPORT. What sending a command frame and the configuration sequence do (40_protocol_encoder.md R118, R123).
-/

namespace Sys2Proof.Machine

theorem sendCommand_of_idle (i : Instr) {s : State} (h : s.configuring = false) : sendCommand i s = s := by
  simp [sendCommand, h]

theorem sendCommand_of_selected {i : Instr} {s : State} (h : s.configuring = true) (hi : i ∈ cfgFrames s.cfg) :
    sendCommand i s = s.write (encode i) := by
  simp [sendCommand, h, hi]

theorem sendCommand_of_not_selected {i : Instr} {s : State} (hi : i ∉ cfgFrames s.cfg) : sendCommand i s = s := by
  simp [sendCommand, hi]

theorem outtext_not_mem_cfgFrames (c : Config) : Instr.outtext ∉ cfgFrames c := by
  obtain ⟨n, range, _, _, _⟩ := c
  cases n <;> cases range <;> simp [cfgFrames, pixcmd, rangecmd]

/-- Whatever frame is handled, at most `tx` changes. -/
theorem sendCommand_eq (i : Instr) (s : State) : ∃ bytes, sendCommand i s = s.write bytes := by
  unfold sendCommand
  split
  · exact ⟨_, rfl⟩
  · exact ⟨[], by simp [State.write]⟩

/-- `CFGSEQ` appends its 12 bytes and changes nothing else; it ends outside "Configuring". -/
theorem cfgSeq_eq (s : State) : cfgSeq s = (s.write (cfgBytes s.cfg)).setConfiguring false := by
  simp [cfgSeq, cfgFrames, cfgBytes, sendCommand, State.write, State.setConfiguring]

end Sys2Proof.Machine
end

