-- ==== Sys2Proof/Laws/Words.lean ====
section
/-!
SUPPORT. The byte-order helpers: assembling a channel value and taking it apart are inverse (20_memory.md R51).
-/

namespace Sys2Proof

@[simp] theorem u16be_toNat (h l : Byte) : (u16be h l).toNat = 256 * h.toNat + l.toNat := by
  have := h.isLt
  have := l.isLt
  simp only [u16be, BitVec.toNat_ofNat]
  omega

@[simp] theorem hiByte_toNat (v : Dist) : (hiByte v).toNat = v.toNat / 256 := by
  have := v.isLt
  simp only [hiByte, BitVec.toNat_ofNat]
  omega

@[simp] theorem loByte_toNat (v : Dist) : (loByte v).toNat = v.toNat % 256 := by
  simp [loByte]

@[simp] theorem u16be_hiByte_loByte (v : Dist) : u16be (hiByte v) (loByte v) = v := by
  apply BitVec.eq_of_toNat_eq
  simp only [u16be_toNat, hiByte_toNat, loByte_toNat]
  omega

@[simp] theorem hiByte_u16be (h l : Byte) : hiByte (u16be h l) = h := by
  have := l.isLt
  apply BitVec.eq_of_toNat_eq
  simp only [hiByte_toNat, u16be_toNat]
  omega

@[simp] theorem loByte_u16be (h l : Byte) : loByte (u16be h l) = l := by
  have := l.isLt
  apply BitVec.eq_of_toNat_eq
  simp only [loByte_toNat, u16be_toNat]
  omega

@[simp] theorem bytesOfWord_length (count w : Nat) : (bytesOfWord count w).length = count := by
  induction count generalizing w with
  | zero => rfl
  | succ n ih => simp [bytesOfWord, ih]

end Sys2Proof
end

