-- ==== Sys2Proof/Laws/Frames.lean ====
section
/-!
SUPPORT. What `DECODE` reads of a byte sequence (42_frame_decoder.md R150) and when a sequence is a valid frame
(30_encoding.md R90).
-/

namespace Sys2Proof.Machine

@[simp] theorem validFrame_iff (c : Config) (f : List Byte) :
    validFrame c f = true ↔ f.length = frameLength c ∧ f.head? = some headerByte := by
  simp [validFrame]

@[simp] theorem channelValues_zero (payload : List Byte) : channelValues 0 payload = [] := by
  cases payload <;> rfl

@[simp] theorem channelValues_succ (n : Nat) (h l : Byte) (rest : List Byte) :
    channelValues (n + 1) (h :: l :: rest) = u16be h l :: channelValues n rest := rfl

theorem channelValues_length (n : Nat) (payload : List Byte) (h : 2 * n ≤ payload.length) :
    (channelValues n payload).length = n := by
  induction n generalizing payload with
  | zero => simp
  | succ n ih =>
    match payload, h with
    | a :: b :: rest, h => simp [ih rest (by simp at h; omega)]

theorem channelValues_getElem? (n : Nat) (payload : List Byte) (i : Nat) (hi : i < n) (h l : Byte)
    (hh : payload[2 * i]? = some h) (hl : payload[2 * i + 1]? = some l) :
    (channelValues n payload)[i]? = some (u16be h l) := by
  induction n generalizing payload i with
  | zero => omega
  | succ n ih =>
    match payload, hh, hl with
    | [], hh, _ => simp at hh
    | [_], _, hl => simp at hl
    | a :: b :: rest, hh, hl =>
      cases i with
      | zero => simp at hh hl; simp [hh, hl]
      | succ j =>
        have e1 : 2 * (j + 1) = 2 * j + 1 + 1 := by omega
        have e2 : 2 * (j + 1) + 1 = 2 * j + 1 + 1 + 1 := by omega
        rw [e1] at hh
        rw [e2] at hl
        simp only [channelValues_succ, List.getElem?_cons_succ] at *
        exact ih rest j (by omega) hh hl

/-- Bytes beyond the payload are not looked at (42_frame_decoder.md R155). -/
theorem channelValues_append (n : Nat) (payload extra : List Byte) (h : 2 * n ≤ payload.length) :
    channelValues n (payload ++ extra) = channelValues n payload := by
  induction n generalizing payload with
  | zero => simp
  | succ n ih =>
    match payload, h with
    | a :: b :: rest, h => simp [ih rest (by simp at h; omega)]

theorem decodeFrame_length (c : Config) (f : List Byte) (h : f.length = frameLength c) :
    (decodeFrame c f).length = c.n.toNat :=
  channelValues_length _ _ (by simp [h, frameLength])

theorem decodeFrame_length_of_valid (c : Config) (f : List Byte) (h : validFrame c f = true) :
    (decodeFrame c f).length = c.n.toNat :=
  decodeFrame_length c f ((validFrame_iff c f).mp h).1

/-- A response-frame row of the block's own `N` decodes to its values. -/
theorem decodeFrame_encode (c : Config) (i : Instr) (hr : i.isResponse = true) (hw : i.wellFormed c = true) :
    decodeFrame c (encode i) = i.values := by
  cases i <;> simp_all [Instr.isResponse, Instr.wellFormed, decodeFrame, encode, Instr.values, ChannelCount.toNat,
    channelValues]

/-- A response-frame row of the block's own `N` is a valid frame. -/
theorem validFrame_encode (c : Config) (i : Instr) (hr : i.isResponse = true) (hw : i.wellFormed c = true) :
    validFrame c (encode i) = true := by
  cases i <;> simp_all [Instr.isResponse, Instr.wellFormed, encode, frameLength, ChannelCount.toNat]

/-- The word of a row has the row's length. -/
theorem encode_length (i : Instr) : (encode i).length = i.byteLength := by cases i <;> rfl

end Sys2Proof.Machine
end

