-- ==== Sys2Proof/Laws/Ops.lean ====
section
/-!
SUPPORT. What the shared operations can do: deliveries and changes of the transport, and the bounds of the transport
through every primitive.
-/

namespace Sys2Proof.Machine

theorem receive_eq_next {bytes : List Byte} {s t : State} (h : receive bytes s = .next t) :
    tHasRoom s.cfg bytes s.transport = true ∧ t = s.setTransport (tDeliver bytes s.transport) := by
  unfold receive at h
  split at h
  · cases h; exact ⟨by assumption, rfl⟩
  · cases h

theorem changeTransport_eq_next {t' : Transport} {s t : State} (h : changeTransport t' s = .next t) :
    tWithinBounds s.cfg t' = true ∧ t = s.setTransport t' := by
  unfold changeTransport at h
  split at h
  · cases h; exact ⟨by assumption, rfl⟩
  · cases h

theorem withinBound_mono {m n : Nat} {bound : Option Nat} (hmn : m ≤ n) (h : withinBound n bound = true) :
    withinBound m bound = true := by
  cases bound with
  | none => rfl
  | some b => simp [withinBound] at *; omega

theorem tWithinBounds_deliver {c : Config} {bytes : List Byte} {t : Transport}
    (hw : tWithinBounds c t = true) (h : tHasRoom c bytes t = true) :
    tWithinBounds c (tDeliver bytes t) = true := by
  cases t with
  | ref p q => simpa [tHasRoom, tWithinBounds, tDeliver] using h
  | free a => exact hw

theorem tWithinBounds_readFrame {c : Config} {n : Nat} {t : Transport} (hw : tWithinBounds c t = true) :
    tWithinBounds c (tReadFrame n t).2 = true := by
  cases t with
  | ref p q => exact withinBound_mono (by simp) hw
  | free a => exact hw

theorem tWithinBounds_release {c : Config} {t : Transport} (hw : tWithinBounds c t = true) :
    tWithinBounds c (tRelease t) = true := by
  cases t <;> exact hw

/-- The next input is the head of the list, and taking it leaves the rest. -/
theorem nextInput_of_cons {s : State} {i : Input} {rest : List Input} (h : s.inputs = i :: rest) :
    nextInput s = some (i, s.setInputs rest) := by
  simp [nextInput, h]

theorem nextInput_of_nil {s : State} (h : s.inputs = []) : nextInput s = none := by
  simp [nextInput, h]

end Sys2Proof.Machine
end

