-- ==== Sys2Proof/Laws/Tracker.lean ====
section
/-!
SUPPORT. What `TRACK` does to one channel and what it leaves alone (43_validity_tracker.md R161 to R167).
-/

namespace Sys2Proof.Machine

variable (raw : Bool) (values : List Dist) (s : State)

@[simp] theorem track_cfg : (track raw values s).cfg = s.cfg := rfl
@[simp] theorem track_phase : (track raw values s).phase = s.phase := rfl
@[simp] theorem track_configuring : (track raw values s).configuring = s.configuring := rfl
@[simp] theorem track_transport : (track raw values s).transport = s.transport := rfl
@[simp] theorem track_tx : (track raw values s).tx = s.tx := rfl
@[simp] theorem track_notes : (track raw values s).notes = s.notes := rfl
@[simp] theorem track_replies : (track raw values s).replies = s.replies := rfl
@[simp] theorem track_inputs : (track raw values s).inputs = s.inputs := rfl

@[simp] theorem trackDist_raw (v d : Dist) : trackDist true v d = v := rfl
@[simp] theorem trackInv_raw (v : Dist) (k : Count) : trackInv true v k = k := rfl
@[simp] theorem trackDist_invalid (d : Dist) : trackDist false 0x0001 d = d := rfl
@[simp] theorem trackInv_invalid (k : Count) : trackInv false 0x0001 k = satInc k := rfl

theorem trackDist_valid {v : Dist} (h : v ≠ 0x0001) (d : Dist) : trackDist false v d = v := by
  have h' : v ≠ invalidCode := h
  simp [trackDist, isInvalid, h']

theorem trackInv_valid {v : Dist} (h : v ≠ 0x0001) (k : Count) : trackInv false v k = 0 := by
  have h' : v ≠ invalidCode := h
  simp [trackInv, isInvalid, h']

theorem satInc_toNat {k : Count} (h : k.toNat < 4294967295) : (satInc k).toNat = k.toNat + 1 := by
  have hk : k ≠ 0xFFFFFFFF := by rintro rfl; simp at h
  simp only [satInc, hk, if_false]
  bv_omega

@[simp] theorem satInc_top : satInc 0xFFFFFFFF = 0xFFFFFFFF := rfl

theorem satInc_ne_zero (k : Count) : satInc k ≠ 0 := by
  unfold satInc
  split
  · decide
  · bv_omega

theorem track_dist_getElem? {i : Nat} {v d : Dist} (hv : values[i]? = some v) (hd : s.dist[i]? = some d) :
    (track raw values s).dist[i]? = some (trackDist raw v d) := by
  simp [track, List.getElem?_zipWith, hv, hd]

theorem track_inv_getElem? {i : Nat} {v : Dist} {k : Count} (hv : values[i]? = some v) (hk : s.inv[i]? = some k) :
    (track raw values s).inv[i]? = some (trackInv raw v k) := by
  simp [track, List.getElem?_zipWith, hv, hk]

theorem track_cacheSized (hv : values.length = s.cfg.n.toNat) (hs : s.CacheSized) :
    (track raw values s).CacheSized :=
  ⟨by simp [track, hv, hs.1], by simp [track, hv, hs.2]⟩

/-- A list zipped with values that are all kept, or all taken. -/
theorem zipWith_keep {α β : Type} (xs : List α) (ys : List β) (h : xs.length = ys.length) :
    List.zipWith (fun _ y => y) xs ys = ys := by
  induction xs generalizing ys with
  | nil => cases ys <;> simp_all
  | cons x xs ih => cases ys <;> simp_all

theorem zipWith_take {α β : Type} (xs : List α) (ys : List β) (h : xs.length = ys.length) :
    List.zipWith (fun x _ => x) xs ys = xs := by
  induction xs generalizing ys with
  | nil => simp
  | cons x xs ih => cases ys <;> simp_all

theorem track_raw_dist (hv : values.length = s.dist.length) : (track true values s).dist = values :=
  zipWith_take _ _ hv

theorem track_raw_inv (hv : values.length = s.inv.length) : (track true values s).inv = s.inv :=
  zipWith_keep _ _ hv

end Sys2Proof.Machine
end

