-- ==== Sys2Proof/Laws/Driver.lean ====
section
/-!
SUPPORT. What an `UPDATE` can do, by the path it takes (44_driver.md R174, R178), and what `CONSTRUCT` and `TEARDOWN` can
do. The whole-machine rules cite these and do not unfold the operations.
-/

namespace Sys2Proof.Machine

@[simp] theorem exec_updateInstr (raw : Bool) (s : State) :
    exec (updateInstr raw) s = .next (update raw s).2 := by
  cases raw <;> rfl

/-- With the event wait the gate is the wait's answer (41_frame_reader.md R131). -/
theorem gate_of_evw {c : Config} (h : c.evw = true) (t : Transport) : gate c t = tWaitReadable t := by
  simp [gate, h]

/-- Without the event wait the gate compares the waiting bytes with `L` (41_frame_reader.md R132). -/
theorem gate_iff_of_not_evw {c : Config} (h : c.evw = false) (t : Transport) :
    gate c t = true ↔ frameLength c ≤ tAvail t := by
  unfold gate
  rw [h]
  exact decide_eq_true_iff

theorem update_of_not_ready (raw : Bool) {s : State} (h : s.phase ≠ .ready) : update raw s = (.notReady, s) := by
  simp [update, State.ready, h]

theorem tryRead_of_gate_false {s : State} (h : gate s.cfg s.transport = false) : tryRead s = (.noData, s) := by
  simp [tryRead, h]

theorem tryRead_of_gate_true {s : State} (h : gate s.cfg s.transport = true) :
    tryRead s = (judgeFrame s.cfg s.readAnswer.1, s.setTransport s.readAnswer.2) := by
  simp [tryRead, h]

theorem update_of_gate_false (raw : Bool) {s : State} (hr : s.phase = .ready)
    (h : gate s.cfg s.transport = false) : update raw s = (.noData, s) := by
  simp [update, State.ready, hr, tryRead_of_gate_false h]

theorem update_of_bad_length (raw : Bool) {s : State} (hr : s.phase = .ready) (hg : gate s.cfg s.transport = true)
    (hl : s.readAnswer.1.length ≠ frameLength s.cfg) :
    update raw s = (.badLength, s.setTransport s.readAnswer.2) := by
  have hj : judgeFrame s.cfg s.readAnswer.1 = .badLength := if_neg hl
  simp only [update, (ready_iff s).mpr hr, if_true, tryRead_of_gate_true hg, hj]

theorem update_of_bad_header (raw : Bool) {s : State} (hr : s.phase = .ready) (hg : gate s.cfg s.transport = true)
    (hl : s.readAnswer.1.length = frameLength s.cfg) (hh : s.readAnswer.1.head? ≠ some headerByte) :
    update raw s = (.badHeader, s.setTransport s.readAnswer.2) := by
  have hj : judgeFrame s.cfg s.readAnswer.1 = .badHeader := (if_pos hl).trans (if_neg hh)
  simp only [update, (ready_iff s).mpr hr, if_true, tryRead_of_gate_true hg, hj]

theorem update_of_accepted (raw : Bool) {s : State} (h : s.FrameAccepted) :
    update raw s =
      (.applied, track raw (decodeFrame s.cfg s.readAnswer.1) (s.setTransport s.readAnswer.2)) := by
  obtain ⟨hr, hg, hv⟩ := h
  obtain ⟨hl, hh⟩ := (validFrame_iff _ _).mp hv
  have hj : judgeFrame s.cfg s.readAnswer.1 = .frame s.readAnswer.1 := (if_pos hl).trans (if_pos hh)
  simp only [update, (ready_iff s).mpr hr, if_true, tryRead_of_gate_true hg, hj]
  rfl

/-- A read that is no valid frame costs the transport its bytes and the block nothing. -/
theorem update_of_rejected (raw : Bool) {s : State} (hr : s.phase = .ready) (hg : gate s.cfg s.transport = true)
    (hv : validFrame s.cfg s.readAnswer.1 = false) :
    (update raw s).2 = s.setTransport s.readAnswer.2 := by
  by_cases hl : s.readAnswer.1.length = frameLength s.cfg
  · have hh : s.readAnswer.1.head? ≠ some headerByte := fun hh => by
      have := (validFrame_iff s.cfg s.readAnswer.1).mpr ⟨hl, hh⟩
      simp [this] at hv
    rw [update_of_bad_header raw hr hg hl hh]
  · rw [update_of_bad_length raw hr hg hl]

/-- What the state after an `UPDATE` can be: the same state, the same but for the transport's bytes, or a whole frame
applied (60_exceptions.md R222). -/
theorem update_cases (raw : Bool) (s : State) :
    (update raw s).2 = s ∨ (update raw s).2 = s.setTransport s.readAnswer.2 ∨
      (s.FrameAccepted ∧ (update raw s).2 =
        track raw (decodeFrame s.cfg s.readAnswer.1) (s.setTransport s.readAnswer.2)) := by
  by_cases hr : s.phase = .ready
  · cases hg : gate s.cfg s.transport
    · exact .inl (by rw [update_of_gate_false raw hr hg])
    · cases hv : validFrame s.cfg s.readAnswer.1
      · exact .inr (.inl (update_of_rejected raw hr hg hv))
      · exact .inr (.inr ⟨⟨hr, hg, hv⟩, by rw [update_of_accepted raw ⟨hr, hg, hv⟩]⟩)
  · exact .inl (by rw [update_of_not_ready raw hr])

/-- A `READY` block takes one read's bytes from the transport exactly when the gate is true. -/
theorem update_transport (raw : Bool) {s : State} (hr : s.phase = .ready) :
    (update raw s).2.transport = if gate s.cfg s.transport then s.readAnswer.2 else s.transport := by
  cases hg : gate s.cfg s.transport
  · rw [update_of_gate_false raw hr hg]; rfl
  · cases hv : validFrame s.cfg s.readAnswer.1
    · rw [update_of_rejected raw hr hg hv]; rfl
    · rw [update_of_accepted raw ⟨hr, hg, hv⟩]; rfl

/-- With a whole frame waiting in the reference transport the gate is true, whichever the variant. -/
theorem gate_ref_of_frame_waiting {c : Config} {rxq : List Byte} (p : Bool) (hl : frameLength c ≤ rxq.length) :
    gate c (.ref p rxq) = true := by
  cases he : c.evw
  · exact (gate_iff_of_not_evw he _).mpr hl
  · rw [gate_of_evw he]
    exact decide_eq_true (by unfold frameLength at hl; omega)

/-- The reference transport gives the first `L` bytes of its queue when they are all there. -/
theorem update_transport_ref (raw : Bool) {s : State} {p : Bool} {rxq : List Byte} (hr : s.phase = .ready)
    (ht : s.transport = .ref p rxq) (hl : frameLength s.cfg ≤ rxq.length) :
    (update raw s).2.transport = .ref p (rxq.drop (frameLength s.cfg)) := by
  rw [update_transport raw hr, State.readAnswer, ht, gate_ref_of_frame_waiting p hl]
  rfl

theorem update_sameControl (raw : Bool) (s : State) : SameControl s (update raw s).2 := by
  rcases update_cases raw s with h | h | ⟨-, h⟩ <;> rw [h] <;> exact ⟨rfl, rfl, rfl⟩

theorem update_sameTraces (raw : Bool) (s : State) : SameTraces s (update raw s).2 := by
  rcases update_cases raw s with h | h | ⟨-, h⟩ <;> rw [h] <;> exact ⟨rfl, rfl, rfl⟩

theorem update_sameInputs (raw : Bool) (s : State) : SameInputs s (update raw s).2 := by
  rcases update_cases raw s with h | h | ⟨-, h⟩ <;> rw [h] <;> exact rfl

theorem update_cacheSized (raw : Bool) {s : State} (h : s.CacheSized) : (update raw s).2.CacheSized := by
  rcases update_cases raw s with e | e | ⟨ha, e⟩ <;> rw [e]
  · exact h
  · exact h
  · exact track_cacheSized raw _ _ (decodeFrame_length_of_valid _ _ ha.2.2) h

theorem exec_construct_present {s : State} (hu : s.phase = .uninit) (hp : tPresent s.transport = true) :
    exec .construct s = .next (((s.write (cfgBytes s.cfg)).setConfiguring false).setPhase .ready) := by
  simp [exec, execConstruct, hu, hp, cfgSeq_eq]

theorem exec_construct_absent {s : State} (hu : s.phase = .uninit) (hp : tPresent s.transport = false) :
    exec .construct s = .next ((s.emit .transportUnavailable).setPhase .failed) := by
  simp [exec, execConstruct, hu, hp]

theorem exec_teardown_ready {s : State} (h : s.phase = .ready) :
    exec .teardown s = .next ((s.setTransport (tRelease s.transport)).setPhase .closed) := by
  simp [exec, execTeardown, h]

theorem exec_teardown_failed {s : State} (h : s.phase = .failed) :
    exec .teardown s = .next (s.setPhase .closed) := by
  simp [exec, execTeardown, h]

/-- A response frame is a delivery of its own bytes. -/
theorem exec_response {i : Instr} (h : i.isResponse = true) (s : State) : exec i s = receive (encode i) s := by
  cases i <;> first | rfl | cases h

/-- A command frame is what the encoder does with its constant. -/
theorem exec_command {i : Instr} (ho : i.isOperation = false) (hr : i.isResponse = false) (s : State) :
    exec i s = .next (sendCommand i s) := by
  cases i <;> first | rfl | contradiction

/-- The frames of `CFGSEQ` are command frames. -/
theorem cfgFrames_are_commands {c : Config} {i : Instr} (h : i ∈ cfgFrames c) :
    i.isOperation = false ∧ i.isResponse = false := by
  obtain ⟨n, range, _, _, _⟩ := c
  cases n <;> cases range <;> simp [cfgFrames, pixcmd, rangecmd] at h <;> rcases h with rfl | rfl | rfl <;>
    exact ⟨rfl, rfl⟩

/-- What `CONSTRUCT` can do (44_driver.md R172, R173). -/
theorem construct_cases {s t : State} (h : exec .construct s = .next t) :
    s.phase = .uninit ∧
      ((tPresent s.transport = true ∧ t = ((s.write (cfgBytes s.cfg)).setConfiguring false).setPhase .ready) ∨
        (tPresent s.transport = false ∧ t = (s.emit .transportUnavailable).setPhase .failed)) := by
  simp only [exec, execConstruct] at h
  split at h
  · split at h
    · cases h; exact ⟨by assumption, .inl ⟨by assumption, by rw [cfgSeq_eq]⟩⟩
    · cases h; exact ⟨by assumption, .inr ⟨Bool.eq_false_iff.mpr (by assumption), rfl⟩⟩
  · cases h

/-- What `TEARDOWN` can do (44_driver.md R181). -/
theorem teardown_cases {s t : State} (h : exec .teardown s = .next t) :
    (s.phase = .ready ∧ t = (s.setTransport (tRelease s.transport)).setPhase .closed) ∨
      (s.phase = .failed ∧ t = s.setPhase .closed) := by
  simp only [exec, execTeardown] at h
  split at h <;> cases h
  · exact .inl ⟨by assumption, rfl⟩
  · exact .inr ⟨by assumption, rfl⟩

/-- What any instruction can do when it answers a next state. -/
theorem exec_cases {i : Instr} {s t : State} (h : exec i s = .next t) :
    (∃ raw, i = updateInstr raw ∧ t = (update raw s).2) ∨
    (∃ r, (i = .distance ∨ i = .invalids) ∧ t = s.reply r) ∨
    (i = .construct) ∨ (i = .teardown) ∨
    (i.isOperation = false ∧ i.isResponse = false ∧ t = sendCommand i s) ∨
    (i.isResponse = true ∧ tHasRoom s.cfg (encode i) s.transport = true ∧
      t = s.setTransport (tDeliver (encode i) s.transport)) := by
  cases i with
  | updateFlt => cases h; exact .inl ⟨false, rfl, rfl⟩
  | updateRaw => cases h; exact .inl ⟨true, rfl, rfl⟩
  | distance => cases h; exact .inr (.inl ⟨_, .inl rfl, rfl⟩)
  | invalids => cases h; exact .inr (.inl ⟨_, .inr rfl, rfl⟩)
  | construct => simp
  | teardown => simp
  | resp1 a t => exact .inr (.inr (.inr (.inr (.inr ⟨rfl, receive_eq_next h⟩))))
  | resp2 a b t => exact .inr (.inr (.inr (.inr (.inr ⟨rfl, receive_eq_next h⟩))))
  | resp4 a b c d t => exact .inr (.inr (.inr (.inr (.inr ⟨rfl, receive_eq_next h⟩))))
  | _ => cases h; exact .inr (.inr (.inr (.inr (.inl ⟨rfl, rfl, rfl⟩))))

end Sys2Proof.Machine
end

