-- ==== Sys2Proof/Laws/PerInstr.lean ====
section
/-!
SUPPORT. Statements about every instruction as syntax, one lemma per constructor. Family `WordLength`: the word of a row
has the length of its format (30_encoding.md R98).
-/

namespace Sys2Proof.Laws.WordLength

def Statement (i : Instr) : Prop := (encode i).length = i.byteLength

theorem updateFlt : Statement .updateFlt := rfl
theorem updateRaw : Statement .updateRaw := rfl
theorem distance : Statement .distance := rfl
theorem invalids : Statement .invalids := rfl
theorem teardown : Statement .teardown := rfl
theorem construct : Statement .construct := rfl
theorem pixmode1 : Statement .pixmode1 := rfl
theorem pixmode2 : Statement .pixmode2 := rfl
theorem pixmode4 : Statement .pixmode4 := rfl
theorem outtext : Statement .outtext := rfl
theorem outbin : Statement .outbin := rfl
theorem rangeshort : Statement .rangeshort := rfl
theorem rangelong : Statement .rangelong := rfl
theorem resp1 (a : Dist) (t : Byte) : Statement (.resp1 a t) := rfl
theorem resp2 (a b : Dist) (t : Byte) : Statement (.resp2 a b t) := rfl
theorem resp4 (a b c d : Dist) (t : Byte) : Statement (.resp4 a b c d t) := rfl

end Sys2Proof.Laws.WordLength
end

