-- ==== Sys2Proof/Laws/Step.lean ====
section
/-!
SUPPORT. What one step can do, and how runs compose.
-/

namespace Sys2Proof.Machine

theorem step_of_nil {s : State} (h : s.inputs = []) : step s = .next s := by
  simp [step, nextInput_of_nil h, idle]

theorem step_of_word {s : State} {bytes : List Byte} {rest : List Input} {i : Instr}
    (h : s.inputs = .word bytes :: rest) (hd : decode bytes = some i) : step s = exec i (s.setInputs rest) := by
  simp [step, nextInput_of_cons h, hd]

theorem step_of_reserved {s : State} {bytes : List Byte} {rest : List Input}
    (h : s.inputs = .word bytes :: rest) (hd : decode bytes = none) : step s = .refused (.reservedWord bytes) := by
  simp [step, nextInput_of_cons h, hd, refuseWord]

theorem step_of_rx {s : State} {bytes : List Byte} {rest : List Input} (h : s.inputs = .rx bytes :: rest) :
    step s = receive bytes (s.setInputs rest) := by
  simp [step, nextInput_of_cons h]

theorem step_of_transport {s : State} {t : Transport} {rest : List Input} (h : s.inputs = .transport t :: rest) :
    step s = changeTransport t (s.setInputs rest) := by
  simp [step, nextInput_of_cons h]

theorem step_of_reset {s : State} {rest : List Input} (h : s.inputs = .reset :: rest) :
    step s = .next (State.resetWith s.cfg s.transport rest) := by
  simp [step, nextInput_of_cons h, hardwareReset]

/-- What a step that answers a next state can be. -/
theorem step_cases {s t : State} (h : step s = .next t) :
    (s.inputs = [] ∧ t = s) ∨
    (∃ bytes rest i, s.inputs = .word bytes :: rest ∧ decode bytes = some i ∧ exec i (s.setInputs rest) = .next t) ∨
    (∃ t' rest, s.inputs.tail = rest ∧ s.inputs ≠ [] ∧ (tWithinBounds s.cfg s.transport = true → tWithinBounds s.cfg t' = true) ∧
      (∀ rest', s.inputs ≠ .reset :: rest') ∧ t = (s.setInputs rest).setTransport t') ∨
    (∃ rest, s.inputs = .reset :: rest ∧ t = State.resetWith s.cfg s.transport rest) := by
  rcases hi : s.inputs with _ | ⟨bytes | bytes | t' | _, rest⟩
  · rw [step_of_nil hi] at h
    cases h
    exact .inl ⟨rfl, rfl⟩
  · cases hd : decode bytes with
    | none => rw [step_of_reserved hi hd] at h; cases h
    | some i =>
      rw [step_of_word hi hd] at h
      exact .inr (.inl ⟨bytes, rest, i, rfl, hd, h⟩)
  · rw [step_of_rx hi] at h
    obtain ⟨hroom, rfl⟩ := receive_eq_next h
    exact .inr (.inr (.inl ⟨_, rest, rfl, by simp, fun hw => tWithinBounds_deliver hw hroom, by simp, rfl⟩))
  · rw [step_of_transport hi] at h
    obtain ⟨hw, rfl⟩ := changeTransport_eq_next h
    exact .inr (.inr (.inl ⟨_, rest, rfl, by simp, fun _ => hw, by simp, rfl⟩))
  · rw [step_of_reset hi] at h
    cases h
    exact .inr (.inr (.inr ⟨rest, rfl, rfl⟩))

@[simp] theorem runsTo_zero (s t : State) : RunsTo 0 s t ↔ s = t :=
  ⟨fun h => Host.Outcome.next.inj h, fun h => congrArg Host.Outcome.next h⟩

theorem runsTo_succ {k : Nat} {s s' t : State} (h : step s = .next s') :
    RunsTo (k + 1) s t ↔ RunsTo k s' t := by
  have : Sys2Proof.core.step s = .next s' := h
  simp [RunsTo, Host.Core.run, this]

theorem runsTo_succ_inv {k : Nat} {s t : State} (h : RunsTo (k + 1) s t) :
    ∃ s', step s = .next s' ∧ RunsTo k s' t := by
  cases hs : step s with
  | next s' => exact ⟨s', rfl, (runsTo_succ hs).mp h⟩
  | fault r => cases r
  | refused r =>
    have : Sys2Proof.core.step s = .refused r := hs
    simp [RunsTo, Host.Core.run, this] at h

/-- The induction over runs, once: what every step keeps, every run keeps. -/
theorem runsTo_keeps {P : State → Prop} (hstep : ∀ s t, P s → step s = .next t → P t) {k : Nat} {s t : State}
    (hs : P s) (h : RunsTo k s t) : P t := by
  induction k generalizing s with
  | zero => exact (runsTo_zero s t).mp h ▸ hs
  | succ k ih =>
    obtain ⟨s', h1, h2⟩ := runsTo_succ_inv h
    exact ih (hstep s s' hs h1) h2

end Sys2Proof.Machine
end

