-- ==== Sys2Proof/Tests/Slice0.lean ====
section
/-!
SUPPORT. Tests, with expected results from the spec's own tables (30_encoding.md, 40_protocol_encoder.md,
95_test_vectors.md), and one witness for each statement that has hypotheses.
-/

namespace Sys2Proof.Tests

open Sys2Proof Sys2Proof.Machine

/-! ## Helpers -/

/-- A block with the given parameters just after reset, beside a transport. -/
def blank (n : ChannelCount) (range : RangeMode) (evw : Bool) (t : Transport) : State :=
  State.resetWith { n := n, range := range, evw := evw, rdMax := none, rxqDepth := none } t []

/-- The same block as a successful `CONSTRUCT` leaves it. -/
def readyBlock (n : ChannelCount) (evw : Bool) (t : Transport) : State :=
  { blank n .short evw t with
    phase := .ready
    tx := cfgBytes { n := n, range := .short, evw := evw, rdMax := none, rxqDepth := none } }

/-- The same block after a teardown. -/
def closedBlock (n : ChannelCount) : State := { readyBlock n false (.ref false []) with phase := .closed }

/-- An open transport that is present and answers `avail`, readable or not, and this read. -/
def answers (avail : Nat) (readable : Bool) (frame : List Byte) : Transport :=
  .free { present := true, avail := avail, readable := readable, frame := frame }

/-- The frame of the document's own example (95_test_vectors.md S3). -/
def exampleFrame : List Byte := [0x54, 0x00, 0x64, 0x00, 0xC8, 0x01, 0x2C, 0xFF, 0xFF, 0x00]

/-- The state an outcome holds, if it is a next state. -/
def nextOf (o : Host.Outcome State Fault Refusal) : Option State :=
  match o with
  | .next s => some s
  | .fault _ => none
  | .refused _ => none

/-- The reason an outcome holds, if it is a refusal. -/
def refusalOf (o : Host.Outcome State Fault Refusal) : Option Refusal :=
  match o with
  | .next _ => none
  | .fault _ => none
  | .refused r => some r

/-! ## Words written out from the spec's encodings -/

/-- 30_encoding.md R93, bit by bit. -/
theorem test_decode_format_h :
    decode [0b00000010] = some .updateFlt ∧ decode [0b00000011] = some .updateRaw ∧
    decode [0b00000100] = some .distance ∧ decode [0b00000110] = some .invalids ∧
    decode [0b00001000] = some .teardown ∧ decode [0b00001010] = some .construct := by decide

/-- 40_protocol_encoder.md R110 and the bit patterns of the opcode table. -/
theorem test_decode_format_c :
    decode [0b00000000, 0b00100001, 0b00000001, 0b10111100] = some .pixmode1 ∧
    decode [0b00000000, 0b00100001, 0b00000011, 0b10110010] = some .pixmode2 ∧
    decode [0b00000000, 0b00100001, 0b00000010, 0b10110101] = some .pixmode4 ∧
    decode [0b00000000, 0b00010001, 0b00000001, 0b01000101] = some .outtext ∧
    decode [0b00000000, 0b00010001, 0b00000010, 0b01001100] = some .outbin ∧
    decode [0b00000000, 0b01100001, 0b00000001, 0b11100111] = some .rangeshort ∧
    decode [0b00000000, 0b01100001, 0b00000011, 0b11101001] = some .rangelong := by decide

/-- 42_frame_decoder.md R151 to R153, the examples of each rule. -/
theorem test_decode_format_r :
    decode [0b01010100, 0x01, 0xF4, 0x9A] = some (.resp1 500 0x9A) ∧
    decode [0b01010100, 0x00, 0x01, 0x12, 0x34, 0x00] = some (.resp2 1 4660 0) ∧
    decode exampleFrame = some (.resp4 100 200 300 65535 0) := by decide

/-- 95_test_vectors.md §2.7: reserved words, each next to an accepted one. -/
theorem test_reserved_host_words :
    ∀ hc ∈ ([0x00, 0x01, 0x05, 0x07, 0x09, 0x0B, 0x0C, 0x0E, 0x12, 0x83, 0xFF] : List Byte),
      decode [hc] = none := by decide

/-- A byte order that is not the spec's is no command; neither is a frame with another header or length. -/
theorem test_reserved_frames :
    decode [0xBC, 0x01, 0x21, 0x00] = none ∧ decode [0x00, 0x21, 0x04, 0xBC] = none ∧
    decode [0x55, 0x01, 0xF4, 0x9A] = none ∧ decode [0x54, 0x01, 0xF4] = none ∧ decode [] = none := by decide

/-- 30_encoding.md R98: the first byte on the wire is the most significant byte of the table's number. -/
theorem test_table_word_order :
    decodeTableWord 32 0x002103B2 = some .pixmode2 ∧ decodeTableWord 32 0xB2032100 = none ∧
    decodeTableWord 48 0x54123456789A = some (.resp2 0x1234 0x5678 0x9A) := by decide

/-- 30_encoding.md R84, the checksum audit of 95_test_vectors.md §2.2. -/
theorem test_crc8 : crc8 [0x00, 0x21, 0x01] = 0xBC ∧ crc8 [0x00, 0x61, 0x03] = 0xE9 := by decide +kernel

/-! ## Well-formedness: each check refuses an ill-formed term -/

theorem test_resp1_ill_formed_for_two : (Instr.resp1 500 0).wellFormed (blank .two .short false (.ref true [])).cfg = false := by
  decide
theorem test_resp2_ill_formed_for_four : (Instr.resp2 1 2 0).wellFormed Config.default = false := by decide
theorem test_resp4_ill_formed_for_one :
    (Instr.resp4 1 2 3 4 0).wellFormed (blank .one .short false (.ref true [])).cfg = false := by decide

/-! ## ProtocolEncoder (95_test_vectors.md §2.2) -/

theorem test_construct_two_long :
    (nextOf (exec .construct (blank .two .long false (.ref true [])))).map (fun t => (t.tx, t.phase)) =
      some ([0x00, 0x21, 0x03, 0xB2, 0x00, 0x11, 0x02, 0x4C, 0x00, 0x61, 0x03, 0xE9], .ready) := by decide

theorem test_construct_four_short :
    (nextOf (exec .construct (blank .four .short false (.ref true [])))).map (fun t => (t.tx, t.dist)) =
      some ([0x00, 0x21, 0x02, 0xB5, 0x00, 0x11, 0x02, 0x4C, 0x00, 0x61, 0x01, 0xE7], [0, 0, 0, 0]) := by decide

theorem test_construct_absent :
    (nextOf (exec .construct (blank .two .short false (.ref false [])))).map (fun t => (t.tx, t.phase, t.notes)) =
      some ([], .failed, [.transportUnavailable]) := by decide

/-- 40_protocol_encoder.md R111 and R123: sent in the Configuring stage when `N = 1`, never outside it. -/
theorem test_pixmode1_sent_only_while_configuring :
    (nextOf (exec .pixmode1 ((blank .one .short false (.ref true [])).setConfiguring true))).map (·.tx) =
      some [0x00, 0x21, 0x01, 0xBC] ∧
    (nextOf (exec .pixmode1 (blank .one .short false (.ref true [])))).map (·.tx) = some [] := by decide

/-- 40_protocol_encoder.md R114. -/
theorem test_outtext_never_sent :
    (nextOf (exec .outtext ((blank .one .short false (.ref true [])).setConfiguring true))).map (·.tx) = some [] := by
  decide

/-! ## FrameReader (95_test_vectors.md §2.3) -/

theorem test_reader_without_event_wait :
    (update true (readyBlock .four false (answers 9 true exampleFrame))).1 = .noData ∧
    (update true (readyBlock .four false (answers 10 true exampleFrame))).1 = .applied ∧
    (update true (readyBlock .four false (answers 10 true []))).1 = .badLength ∧
    (update true (readyBlock .four false (answers 11 true (exampleFrame ++ [0x54])))).1 = .badLength ∧
    (update true (readyBlock .four false (answers 10 true (0xD4 :: exampleFrame.tail)))).1 = .badHeader := by decide

theorem test_reader_with_event_wait :
    (update true (readyBlock .four true (answers 25 false exampleFrame))).1 = .noData ∧
    (update true (readyBlock .four true (answers 0 true [0x54, 0x00, 0x64]))).1 = .badLength ∧
    (update true (readyBlock .four true (answers 0 true exampleFrame))).1 = .applied := by decide

/-- 95_test_vectors.md program 2, step 4: a misaligned sized read is lost whole. -/
theorem test_reader_misaligned_read_is_lost :
    (nextOf (exec .updateFlt (readyBlock .two false
      (.ref true [0xFF, 0x00, 0x54, 0x01, 0x20, 0x00, 0x54, 0xAA])))).map (·.transport) =
        some (.ref true [0x54, 0xAA]) := by decide

/-! ## FrameDecoder (95_test_vectors.md §2.4) -/

theorem test_decoder_vectors :
    decodeFrame (blank .one .short false (.ref true [])).cfg [0x54, 0x80, 0x00, 0x00] = [32768] ∧
    decodeFrame (blank .two .short false (.ref true [])).cfg [0x54, 0x54, 0x54, 0x54, 0x54, 0x54] = [21588, 21588] ∧
    decodeFrame Config.default [0x54, 0x01, 0x02, 0x03, 0x04, 0x05, 0x06, 0x07, 0x08, 0x09] =
      [258, 772, 1286, 1800] := by decide

/-! ## ValidityTracker (95_test_vectors.md §2.5) -/

theorem test_tracker_rows :
    (trackDist true 0x0001 300, trackInv true 0x0001 2) = (1, 2) ∧
    (trackDist false 0x0001 300, trackInv false 0x0001 1) = (300, 2) ∧
    (trackDist false 0x0000 300, trackInv false 0x0000 3) = (0, 0) ∧
    (trackDist false 0x0101 300, trackInv false 0x0101 3) = (257, 0) ∧
    trackInv false 0x0001 4294967294 = 4294967295 ∧ trackInv false 0x0001 4294967295 = 4294967295 := by decide

/-- The document's own example S3 (raw). -/
theorem test_update_raw_example :
    (nextOf (exec .updateRaw (readyBlock .four false (.ref true exampleFrame)))).map
      (fun t => (t.dist, t.inv, t.transport)) = some ([100, 200, 300, 65535], [0, 0, 0, 0], .ref true []) := by decide

/-- The whole frame with mixed lanes at the end of §2.5 (filtered). -/
theorem test_update_flt_mixed_lanes :
    (nextOf (exec .updateFlt { readyBlock .four false
        (.ref true [0x54, 0x00, 0x65, 0x00, 0x00, 0x00, 0x01, 0x4E, 0x20, 0x77]) with
          dist := [100, 200, 300, 65535], inv := [0, 0, 2, 1] })).map (fun t => (t.dist, t.inv)) =
      some ([101, 0, 300, 20000], [0, 0, 3, 0]) := by decide

/-! ## Driver (95_test_vectors.md §2.6) -/

theorem test_update_before_construct :
    nextOf (exec .updateRaw (blank .four .short false (.ref true exampleFrame))) =
      some (blank .four .short false (.ref true exampleFrame)) := by decide

theorem test_update_after_teardown :
    (nextOf (exec .updateRaw ((closedBlock .four).setTransport (answers 10 true exampleFrame)))).map (·.dist) =
      some [0, 0, 0, 0] := by decide

theorem test_distance_returns_integers :
    (nextOf (exec .distance { readyBlock .four false (.ref true []) with dist := [258, 772, 1286, 65535] })).map
      (·.replies) = some [.distances [258, 772, 1286, 65535]] := by decide

theorem test_invalids_returns_integers :
    (nextOf (exec .invalids { closedBlock .four with inv := [0, 0, 3, 4294967295] })).map (·.replies) =
      some [.counts [0, 0, 3, 4294967295]] := by decide

theorem test_teardown_releases :
    (nextOf (exec .teardown (readyBlock .two false (.ref true [0x54])))).map (fun t => (t.phase, t.transport)) =
      some (.closed, .ref false [0x54]) := by decide

theorem test_refused_outside_phase :
    refusalOf (exec .construct (readyBlock .two false (.ref true []))) = some .constructOutsideUninit ∧
    refusalOf (exec .teardown (blank .two .short false (.ref true []))) = some .teardownBeforeConstruct ∧
    refusalOf (exec .teardown (closedBlock .two)) = some .teardownAfterTeardown := by decide

/-! ## Responses and steps -/

/-- 20_memory.md R67: the frame joins the queue behind what waits; the block is untouched. -/
theorem test_resp1_arrives :
    (nextOf (exec (.resp1 500 0x9A) (readyBlock .one true (.ref true [0xFF])))).map (·.transport) =
      some (.ref true [0xFF, 0x54, 0x01, 0xF4, 0x9A]) := by decide

theorem test_resp2_overflows_a_full_queue :
    refusalOf (exec (.resp2 1 2 0) { readyBlock .two true (.ref true []) with
      cfg := { n := .two, range := .short, evw := true, rdMax := none, rxqDepth := some 5 } }) =
        some .receiveQueueOverflow := by decide

theorem test_resp4_arrives :
    (nextOf (exec (.resp4 100 200 300 65535 0) (readyBlock .four true (.ref true [])))).map (·.transport) =
      some (.ref true exampleFrame) := by decide

/-- The table word of `CONSTRUCT` is the first thing a block after reset runs. -/
theorem test_step_runs_construct_from_reset :
    (nextOf (step (State.reset.withFetchWord 8 0x0A))).map (·.phase) = some .ready := by decide

theorem test_step_refuses_reserved_word :
    refusalOf (step (State.reset.withFetchWord 8 0x12)) = some (.reservedWord [0x12]) := by decide

/-- 70_reset_and_hazards.md R240: reset leaves `CLOSED` and touches nothing outside the block. -/
theorem test_reset_leaves_closed :
    (nextOf (step ((closedBlock .two).setInputs [.reset]))).map (fun t => (t.phase, t.tx, t.transport)) =
      some (.uninit, [], .ref false []) := by decide

/-! ## Witnesses: each statement with hypotheses has a state and operands that meet them all -/

/-- A `READY` block whose next read is the example frame. -/
def accepting : State := readyBlock .four false (.ref true exampleFrame)

/-- A `READY` block with a gate that is true and a read that is no frame. -/
def rejecting (frame : List Byte) : State := readyBlock .four false (answers 10 true frame)

theorem witness_accepting : accepting.CacheSized ∧ accepting.FrameAccepted := by decide

theorem witness_EncodeOfDecodeIsTheWord : decode [0x02] = some .updateFlt := by decide

theorem witness_ReservedHostWordIsRefused :
    (State.reset.setInputs [.word [0x0B]]).inputs = .word [0x0B] :: [] ∧
    (0x0B : Byte) ∉ ([0x02, 0x03, 0x04, 0x06, 0x08, 0x0A] : List Byte) := by decide

theorem witness_OnlyThreePixelCountsCanBeBuilt :
    Config.build? 4 true false = some Config.default ∧ (Config.build? 2 false true).isSome = true ∧
    (Config.build? 1 true true).isSome = true ∧ Config.build? 3 true true = none := by decide

theorem witness_DecodedChannelsAreBigEndian : exampleFrame.length = frameLength Config.default ∧
    3 < Config.default.n.toNat := by decide

theorem witness_ResponseFormatsDecodeToTheirValues :
    (blank .one .short false (.ref true [])).cfg.n = .one ∧ (blank .two .short false (.ref true [])).cfg.n = .two ∧
    (blank .four .short false (.ref true [])).cfg.n = .four ∧
    (∃ t, exec (.resp1 500 0) State.reset = .next t) ∧ (∃ t, exec (.resp2 500 1 0) State.reset = .next t) ∧
    ∃ t, exec (.resp4 500 1 2 3 0) State.reset = .next t :=
  ⟨rfl, rfl, rfl, ⟨_, rfl⟩, ⟨_, rfl⟩, ⟨_, rfl⟩⟩

theorem witness_GateIsTheQueryOfTheVariant :
    (readyBlock .one true (.ref true [])).cfg.evw = true ∧ Config.default.evw = false := by decide

theorem witness_FalseGateIsAnIdempotentNoOp :
    (readyBlock .four false (answers 9 true [])).phase = .ready ∧
    gate (readyBlock .four false (answers 9 true [])).cfg (answers 9 true []) = false := by decide

theorem witness_RejectedReadChangesNoRegister :
    (rejecting []).phase = .ready ∧ gate (rejecting []).cfg (rejecting []).transport = true ∧
    validFrame (rejecting []).cfg (rejecting []).readAnswer.1 = false := by decide

theorem witness_UpdateTakesOneOfFivePaths_not_ready : State.reset.phase ≠ .ready := by decide

theorem witness_UpdateTakesOneOfFivePaths_bad_length :
    (rejecting exampleFrame.tail).phase = .ready ∧
    gate (rejecting exampleFrame.tail).cfg (rejecting exampleFrame.tail).transport = true ∧
    (rejecting exampleFrame.tail).readAnswer.1.length ≠ frameLength (rejecting exampleFrame.tail).cfg := by decide

theorem witness_UpdateTakesOneOfFivePaths_bad_header :
    (rejecting (0x55 :: exampleFrame.tail)).phase = .ready ∧
    gate (rejecting (0x55 :: exampleFrame.tail)).cfg (rejecting (0x55 :: exampleFrame.tail)).transport = true ∧
    (rejecting (0x55 :: exampleFrame.tail)).readAnswer.1.length =
      frameLength (rejecting (0x55 :: exampleFrame.tail)).cfg ∧
    (rejecting (0x55 :: exampleFrame.tail)).readAnswer.1.head? ≠ some 0x54 := by decide

theorem witness_UpdateTakesOneOfFivePaths_applied :
    accepting.phase = .ready ∧ gate accepting.cfg accepting.transport = true ∧
    accepting.readAnswer.1.length = frameLength accepting.cfg ∧ accepting.readAnswer.1.head? = some 0x54 := by decide

theorem witness_ReferenceTransportGivesOneSizedRead :
    accepting.phase = .ready ∧ accepting.transport = .ref true exampleFrame ∧ accepting.cfg.evw = false ∧
    (readyBlock .one true (.ref true [0x54])).phase = .ready ∧
    (readyBlock .one true (.ref true [0x54])).transport = .ref true [0x54] ∧
    (readyBlock .one true (.ref true [0x54])).cfg.evw = true := by decide

/-- Two updates, one of each mode, against two frames' bytes that are off by one byte. -/
theorem witness_MisalignedStreamStaysMisaligned :
    let s := (readyBlock .four false (.ref true (0xFF :: (exampleFrame ++ exampleFrame)))).setInputs
      ([true, false].map (fun raw => .word (encode (updateInstr raw))) ++ [])
    s.phase = .ready ∧ s.transport = .ref true (0xFF :: (exampleFrame ++ exampleFrame)) ∧
    2 * frameLength s.cfg ≤ (0xFF :: (exampleFrame ++ exampleFrame) : List Byte).length ∧
    s.inputs = [true, false].map (fun raw => .word (encode (updateInstr raw))) ++ [] := by decide

/-- Both clauses of a channel: an invalid reading below the top of the counter, and another value (a sentinel). -/
theorem witness_FilteredUpdateTracksEachChannel :
    let s := readyBlock .two false (.ref true [0x54, 0x00, 0x01, 0xFF, 0xFF, 0x00])
    s.CacheSized ∧ s.FrameAccepted ∧ (decodeFrame s.cfg s.readAnswer.1)[0]? = some 0x0001 ∧
    s.dist[0]? = some 0 ∧ s.inv[0]? = some 0 ∧ (0 : Count).toNat < 4294967295 ∧
    (decodeFrame s.cfg s.readAnswer.1)[1]? = some 0xFFFF ∧ s.dist[1]? = some 0 ∧ s.inv[1]? = some 0 ∧
    (0xFFFF : Dist) ≠ 0x0001 := by decide

theorem witness_CounterSaturatesAtTheTop :
    let s := { readyBlock .one false (.ref true [0x54, 0x00, 0x01, 0x00]) with inv := [0xFFFFFFFF] }
    s.FrameAccepted ∧ (decodeFrame s.cfg s.readAnswer.1)[0]? = some 0x0001 ∧ s.dist[0]? = some 0 ∧
    s.inv[0]? = some 0xFFFFFFFF := by decide

/-- Two blocks that agree on channel 0 and differ on channel 1. -/
theorem witness_ChannelsDoNotInteract :
    let s := readyBlock .two false (.ref true [0x54, 0x00, 0x01, 0x12, 0x34, 0x00])
    let u := { readyBlock .two false (.ref true [0x54, 0x00, 0x01, 0x00, 0x01, 0xFF]) with dist := [0, 7] }
    s.FrameAccepted ∧ u.FrameAccepted ∧ s.dist[0]? = u.dist[0]? ∧ s.inv[0]? = u.inv[0]? ∧
    (decodeFrame s.cfg s.readAnswer.1)[0]? = (decodeFrame u.cfg u.readAnswer.1)[0]? := by decide

theorem witness_FilteredCounterIsZeroIffReadingValid :
    accepting.CacheSized ∧ accepting.FrameAccepted ∧
    (decodeFrame accepting.cfg accepting.readAnswer.1)[3]? = some 0xFFFF := by decide

/-- Two invalid frames, the counter ending at the top of its range. -/
theorem witness_InvalidRunIsCountedExactly :
    let f : List Byte := [0x54, 0x00, 0x01, 0x00]
    let s := { readyBlock .one false (.ref true ([f, f].flatten ++ [])) with
      inv := [4294967293], inputs := List.replicate 2 (Input.word [0x02]) ++ [] }
    s.CacheSized ∧ s.phase = .ready ∧ s.transport = .ref true ([f, f].flatten ++ []) ∧
    (∀ g ∈ [f, f], validFrame s.cfg g = true ∧ (decodeFrame s.cfg g)[0]? = some 0x0001) ∧
    s.inv[0]? = some 4294967293 ∧ (4294967293 : Count).toNat + [f, f].length ≤ 4294967295 ∧
    s.inputs = List.replicate 2 (.word [0x02]) ++ [] := by decide

theorem witness_ValidReadingEndsAnInvalidRun :
    let f : List Byte := [0x54, 0x00, 0x01, 0x00]
    let g : List Byte := [0x54, 0x01, 0x40, 0x00]
    let s := { readyBlock .one true (.ref true ([f].flatten ++ (g ++ []))) with
      inputs := List.replicate 2 (Input.word [0x02]) ++ [] }
    s.CacheSized ∧ s.phase = .ready ∧ s.transport = .ref true ([f].flatten ++ (g ++ [])) ∧
    (∀ h ∈ [f], validFrame s.cfg h = true ∧ (decodeFrame s.cfg h)[0]? = some 0x0001) ∧
    validFrame s.cfg g = true ∧ (decodeFrame s.cfg g)[0]? = some 0x0140 ∧ (0x0140 : Dist) ≠ 0x0001 ∧
    s.inputs = List.replicate 2 (.word [0x02]) ++ [] := by decide

theorem witness_OnlyTheInvalidCodeIsSpecial : (0x0000 : Dist) ≠ 0x0001 ∧ (0x0002 : Dist) ≠ 0x0001 := by decide

theorem witness_CommandFramesAreSentWhenSelected :
    ((blank .one .long false (.ref true [])).setConfiguring true).configuring = true ∧
    (blank .one .long false (.ref true [])).configuring = false := by decide

theorem reset_sound : State.reset.Sound :=
  ⟨by decide, by decide, rfl, by decide, ⟨rfl, rfl, rfl, rfl⟩⟩

theorem witness_TrailingByteIsNeverInterpreted :
    ([0x54, 0x01, 0xF4] : List Byte).length + 1 = frameLength (blank .one .short false (.ref true [])).cfg := by decide

theorem witness_TextModeFrameIsNeverSent :
    (State.reset.setInputs [.word [0x0A]]).Sound ∧
    ∃ t, RunsTo 1 (State.reset.setInputs [.word [0x0A]]) t ∧ t.phase = .ready :=
  ⟨⟨by decide, by decide, rfl, by decide, ⟨rfl, rfl, rfl, rfl⟩⟩, _, rfl, rfl⟩

theorem witness_OnlyConstructSends :
    (State.reset.configuring = false ∧ (∃ t, exec .distance State.reset = .next t) ∧ Instr.distance ≠ .construct) ∧
    (∃ t, exec .construct (blank .one .short false (.ref false [])) = .next t ∧
      tPresent (blank .one .short false (.ref false [])).transport = false) ∧
    ∃ t, exec .construct State.reset = .next t :=
  ⟨⟨rfl, ⟨_, rfl⟩, by decide⟩, ⟨_, rfl, rfl⟩, ⟨_, rfl⟩⟩

theorem witness_ConstructSendsThreeFramesInOrder :
    State.reset.phase = .uninit ∧ tPresent State.reset.transport = true := by decide

theorem witness_ConstructLeavesTheReceiveStream :
    tPresent State.reset.transport = true ∧ ∃ t, exec .construct State.reset = .next t := ⟨rfl, _, rfl⟩

theorem witness_ConstructRunsTheCommandFrames :
    (blank .one .long true (answers 3 true [])).phase = .uninit ∧
    tPresent (blank .one .long true (answers 3 true [])).transport = true := by decide

theorem witness_ConstructWithoutTransportFails :
    (blank .two .short false (.ref false [])).phase = .uninit ∧
    tPresent (blank .two .short false (.ref false [])).transport = false := by decide

theorem witness_UpdateWhileNotReadyDoesNothing :
    State.reset.phase ≠ .ready ∧ (closedBlock .two).phase ≠ .ready := by decide

theorem witness_AccessorsReturnTheCache : (closedBlock .two).CacheSized := by decide

/-- A `FAILED` block. -/
def failedBlock : State := { blank .two .short false (.ref false []) with phase := .failed, notes := [.transportUnavailable] }

theorem witness_TeardownClosesAndKeepsTheCache :
    (readyBlock .two false (.ref true [])).phase = .ready ∧
    (readyBlock .two false (.ref true [])).transport = .ref true [] ∧ failedBlock.phase = .failed := by decide

theorem witness_OperationsOutsideTheirPhaseAreRefused :
    failedBlock.phase ≠ .uninit ∧ State.reset.phase = .uninit ∧ (closedBlock .one).phase = .closed := by decide

theorem witness_ReadyFlagFollowsTheLifecycle :
    (∃ t, exec .construct State.reset = .next t) ∧ (∃ t, exec .teardown failedBlock = .next t) ∧
    State.reset.ready = false :=
  ⟨⟨_, rfl⟩, ⟨_, rfl⟩, rfl⟩

theorem witness_PhaseTransitionsFollowTheTable :
    (∃ t, exec .construct State.reset = .next t) ∧ (∃ t, exec .teardown (readyBlock .one true (.ref true [])) = .next t) ∧
    (∃ t, exec .updateFlt State.reset = .next t) ∧ Instr.updateFlt ≠ .construct ∧ Instr.updateFlt ≠ .teardown :=
  ⟨⟨_, rfl⟩, ⟨_, rfl⟩, ⟨_, rfl⟩, by decide, by decide⟩

theorem witness_OnlyUpdatesWriteTheCache :
    (∃ t, exec .teardown failedBlock = .next t) ∧ Instr.teardown ≠ .updateRaw ∧ Instr.teardown ≠ .updateFlt :=
  ⟨⟨_, rfl⟩, by decide, by decide⟩

theorem witness_OnlyFilteredUpdatesWriteTheCounters :
    accepting.CacheSized ∧ (∃ t, exec .updateRaw accepting = .next t) ∧ Instr.updateRaw ≠ .updateFlt :=
  ⟨witness_accepting.1, ⟨_, rfl⟩, by decide⟩

theorem witness_ParametersAndProgramAreFixed : ∃ t, step (State.reset.setInputs [.word [0x0A], .reset]) = .next t :=
  ⟨_, rfl⟩

theorem witness_CacheLengthIsAlwaysN :
    let s := State.reset.setInputs [.word [0x0A], .rx exampleFrame, .word [0x03]]
    s.CacheSized ∧ ∃ t, RunsTo 3 s t :=
  ⟨by decide, _, rfl⟩

theorem witness_OnlyResetLeavesClosed :
    let s := (closedBlock .two).setInputs [.word [0x03]]
    s.phase = .closed ∧ (∀ rest, s.inputs ≠ .reset :: rest) ∧ ∃ t, step s = .next t :=
  ⟨rfl, fun _ h => (nomatch h), _, rfl⟩

theorem witness_HardwareResetRestoresResetValues :
    (accepting.setInputs [.reset]).inputs = .reset :: [] := by decide

theorem witness_ResetStateIsSound : tWithinBounds Config.default (answers 3 true exampleFrame) = true := by decide

theorem witness_EveryStepKeepsSoundness :
    (State.reset.setInputs [.word [0x0A]]).Sound ∧ ∃ t, step (State.reset.setInputs [.word [0x0A]]) = .next t :=
  ⟨witness_TextModeFrameIsNeverSent.1, _, rfl⟩

theorem witness_StepRunsTheDecodedInstruction :
    (State.reset.setInputs [.word [0x06]]).inputs = .word [0x06] :: [] ∧ decode [0x06] = some .invalids ∧
    decodeTableWord 80 0x54006400C8012CFFFF00 = some (.resp4 100 200 300 65535 0) := by decide

theorem witness_BlockActsOnlyOnHostOperations :
    State.reset.inputs = [] ∧
    ((accepting.setInputs [.rx [0x54]]).inputs = .rx [0x54] :: [] ∧
      ∃ t, step (accepting.setInputs [.rx [0x54]]) = .next t) ∧
    (accepting.setInputs [.transport (answers 3 true [])]).inputs = .transport (answers 3 true []) :: [] ∧
    tWithinBounds accepting.cfg (answers 3 true []) = true ∧
    tWithinBounds { Config.default with rdMax := some 1 } (answers 3 true [0x54, 0x01]) = false :=
  ⟨rfl, ⟨rfl, _, rfl⟩, rfl, rfl, by decide⟩

/-- Both clauses at the boundary: a delivery that just fits, and one byte more. -/
theorem witness_DeliveriesJoinTheReceiveQueue :
    accepting.transport = .ref true exampleFrame ∧
    (accepting.setInputs [.rx [0x54]]).inputs = .rx [0x54] :: [] ∧
    withinBound (exampleFrame.length + 1) (some 11) = true ∧ withinBound (exampleFrame.length + 2) (some 11) = false ∧
    (Instr.resp4 1 2 3 4 0).isResponse = true ∧
    withinBound (exampleFrame.length + (Instr.resp4 1 2 3 4 0).byteLength) accepting.cfg.rxqDepth = true := by decide

theorem witness_ResponseFrameOnOpenTransportCompletes :
    (rejecting []).transport = .free { present := true, avail := 10, readable := true, frame := [] } ∧
    (Instr.resp1 500 0).isResponse = true := by decide

/-- A sound `READY` block with the event wait, and the frame of its own `N`. -/
theorem witness_DeliveredFrameReachesTheHost :
    let s := (readyBlock .one true (.ref true [])).setInputs
      [.word (encode (.resp1 500 0x9A)), .word [0x03], .word [0x04]]
    s.Sound ∧ s.phase = .ready ∧ s.transport = .ref true [] ∧
    withinBound (Instr.resp1 500 0x9A).byteLength s.cfg.rxqDepth = true ∧
    (Instr.resp1 500 0x9A).isResponse = true ∧ (Instr.resp1 500 0x9A).wellFormed s.cfg = true ∧
    s.inputs = .word (encode (.resp1 500 0x9A)) :: .word [0x03] :: .word [0x04] :: [] :=
  ⟨⟨by decide, by decide, rfl, by decide, ⟨rfl, rfl⟩⟩, rfl, rfl, rfl, rfl, rfl, rfl⟩

end Sys2Proof.Tests
end

section
/-!
The statements of 00_scope.md: which blocks can be built (R5 to R8), and that a step is one instruction (R11).
-/

namespace Sys2Proof

/-- The partial inverse of `ChannelCount.toNat`: D3 refuses exactly the numbers that name no channel count. -/
theorem ChannelCount.ofNat?_eq_some_iff {k : Nat} {n : ChannelCount} :
    ChannelCount.ofNat? k = some n ↔ n.toNat = k := by
  constructor
  · intro h
    unfold ChannelCount.ofNat? at h
    split at h <;> cases h <;> rfl
  · rintro rfl
    cases n <;> rfl

theorem ChannelCount.exists_toNat_eq_iff {k : Nat} :
    (∃ n : ChannelCount, n.toNat = k) ↔ k = 1 ∨ k = 2 ∨ k = 4 := by
  constructor
  · rintro ⟨n, rfl⟩
    cases n <;> decide
  · rintro (rfl | rfl | rfl)
    · exact ⟨.one, rfl⟩
    · exact ⟨.two, rfl⟩
    · exact ⟨.four, rfl⟩

theorem Config.build?_eq_some_iff {k : Nat} {shortRange evw : Bool} {c : Config} :
    Config.build? k shortRange evw = some c ↔ ∃ n : ChannelCount, n.toNat = k ∧
      c = { n := n, range := if shortRange then .short else .long, evw := evw, rdMax := none, rxqDepth := none } := by
  simp only [Config.build?, Option.map_eq_some_iff, ChannelCount.ofNat?_eq_some_iff, @eq_comm _ c]

theorem Config.build?_isSome_iff {k : Nat} {shortRange evw : Bool} :
    (Config.build? k shortRange evw).isSome = true ↔ k = 1 ∨ k = 2 ∨ k = 4 := by
  simp [Option.isSome_iff_exists, Config.build?_eq_some_iff, ← ChannelCount.exists_toNat_eq_iff]

end Sys2Proof

namespace Sys2Proof.Machine

/-- A table word is read from its own bytes; widths that are no whole number of bytes never decode (R98). -/
theorem decode_of_decodeTableWord {nbits w : Nat} {i : Instr} (h : decodeTableWord nbits w = some i) :
    decode (bytesOfWord (nbits / 8) w) = some i := by
  unfold decodeTableWord at h
  split at h
  · exact h
  · cases h

@[simp] theorem withFetchWord_inputs (s : State) (nbits w : Nat) :
    (s.withFetchWord nbits w).inputs = .word (bytesOfWord (nbits / 8) w) :: s.inputs := rfl

/-- Taking a presented word off again gives the state it was presented to. -/
@[simp] theorem withFetchWord_setInputs (s : State) (nbits w : Nat) :
    (s.withFetchWord nbits w).setInputs s.inputs = s := rfl

theorem step_withFetchWord {nbits w : Nat} {i : Instr} (s : State) (h : decodeTableWord nbits w = some i) :
    step (s.withFetchWord nbits w) = exec i s := by
  rw [step_of_word (withFetchWord_inputs s nbits w) (decode_of_decodeTableWord h), withFetchWord_setInputs]

end Sys2Proof.Machine

namespace Sys2Proof

open Machine

/-- Settles O7: `Config.build?` goes through the partial inverse of `ChannelCount.toNat`. -/
theorem onlyThreePixelCountsCanBeBuilt : Obligations.OnlyThreePixelCountsCanBeBuilt := by
  intro k shortRange evw
  refine ⟨Config.build?_isSome_iff, fun c h => ?_⟩
  obtain ⟨n, rfl, rfl⟩ := Config.build?_eq_some_iff.mp h
  exact ⟨rfl, rfl, rfl, rfl⟩

/-- Settles O46: a step on a decodable head, and the same step on a word just presented. -/
theorem stepRunsTheDecodedInstruction : Obligations.StepRunsTheDecodedInstruction :=
  ⟨fun _ _ _ _ => step_of_word, fun s _ _ _ => step_withFetchWord s⟩

end Sys2Proof
end

section
/-!
The statements of 10_state.md: the registers (R20 to R27), which operations write them (R28 to R30), and their values
after reset (R35). A sound state is one between operations; every kind of step leads to another.
-/

namespace Sys2Proof.Machine

/-! ### The cache under each operation -/

/-- The register counts are a fact about the cache and the parameters alone. -/
theorem SameCache.cacheSized {s t : State} (h : SameCache s t) (hc : t.cfg = s.cfg) (hs : s.CacheSized) :
    t.CacheSized := by
  obtain ⟨hd, hi⟩ := h
  rw [State.CacheSized, hd, hi, hc]
  exact hs

theorem sendCommand_sameCache (i : Instr) (s : State) : SameCache s (sendCommand i s) := by
  obtain ⟨bytes, h⟩ := sendCommand_eq i s
  rw [h]
  exact ⟨rfl, rfl⟩

theorem construct_sameCache {s t : State} (h : exec .construct s = .next t) : SameCache s t := by
  obtain ⟨-, ⟨-, rfl⟩ | ⟨-, rfl⟩⟩ := construct_cases h <;> exact ⟨rfl, rfl⟩

theorem teardown_sameCache {s t : State} (h : exec .teardown s = .next t) : SameCache s t := by
  obtain ⟨-, rfl⟩ | ⟨-, rfl⟩ := teardown_cases h <;> exact ⟨rfl, rfl⟩

/-- An instruction is an `UPDATE`, or it leaves the cache as it found it. -/
theorem exec_update_or_sameCache {i : Instr} {s t : State} (h : exec i s = .next t) :
    (∃ raw, i = updateInstr raw ∧ t = (update raw s).2) ∨ SameCache s t := by
  obtain hu | ⟨r, -, rfl⟩ | rfl | rfl | ⟨-, -, rfl⟩ | ⟨-, -, rfl⟩ := exec_cases h
  · exact .inl hu
  · exact .inr ⟨rfl, rfl⟩
  · exact .inr (construct_sameCache h)
  · exact .inr (teardown_sameCache h)
  · exact .inr (sendCommand_sameCache i s)
  · exact .inr ⟨rfl, rfl⟩

/-- A raw update keeps every counter on each of its paths; a frame is applied to as many counters as it has values. -/
theorem update_raw_inv {s : State} (hs : s.CacheSized) : (update true s).2.inv = s.inv := by
  obtain h | h | ⟨⟨-, -, hv⟩, h⟩ := update_cases true s <;> rw [h]
  · rfl
  · have hlen : (decodeFrame s.cfg s.readAnswer.1).length = s.inv.length :=
      (decodeFrame_length_of_valid _ _ hv).trans hs.2.symm
    exact track_raw_inv _ (s.setTransport s.readAnswer.2) hlen

/-- In filtered mode only a reading that is not the invalid code leaves a counter at 0 (10_state.md R28). -/
theorem trackInv_filtered_eq_zero_iff (v : Dist) (k : Count) : trackInv false v k = 0 ↔ v ≠ 0x0001 := by
  by_cases hv : v = 0x0001
  · subst hv
    exact iff_of_false (satInc_ne_zero k) (fun h => h rfl)
  · exact iff_of_true (trackInv_valid hv k) hv

/-- Every decoded value of an accepted frame has a counter to go to. -/
theorem inv_getElem?_of_decoded {s : State} {i : Nat} {v : Dist} (hs : s.CacheSized) (ha : s.FrameAccepted)
    (hv : (decodeFrame s.cfg s.readAnswer.1)[i]? = some v) : ∃ k, s.inv[i]? = some k := by
  have hi : i < (decodeFrame s.cfg s.readAnswer.1).length := (List.getElem?_eq_some_iff.mp hv).1
  rw [decodeFrame_length_of_valid _ _ ha.2.2, ← hs.2] at hi
  exact ⟨_, List.getElem?_eq_getElem hi⟩

/-! ### The parameters and the register counts -/

theorem exec_cfg {i : Instr} {s t : State} (h : exec i s = .next t) : t.cfg = s.cfg := by
  obtain ⟨raw, -, rfl⟩ | ⟨r, -, rfl⟩ | rfl | rfl | ⟨-, -, rfl⟩ | ⟨-, -, rfl⟩ := exec_cases h
  · exact (update_sameControl raw s).2.2
  · rfl
  · obtain ⟨-, ⟨-, rfl⟩ | ⟨-, rfl⟩⟩ := construct_cases h <;> rfl
  · obtain ⟨-, rfl⟩ | ⟨-, rfl⟩ := teardown_cases h <;> rfl
  · obtain ⟨bytes, hw⟩ := sendCommand_eq i s
    rw [hw]
    rfl
  · rfl

theorem exec_cacheSized {i : Instr} {s t : State} (hs : s.CacheSized) (h : exec i s = .next t) : t.CacheSized := by
  obtain ⟨raw, -, rfl⟩ | hc := exec_update_or_sameCache h
  · exact update_cacheSized raw hs
  · exact hc.cacheSized (exec_cfg h) hs

theorem resetWith_cacheSized (c : Config) (t : Transport) (inputs : List Input) :
    (State.resetWith c t inputs).CacheSized :=
  ⟨List.length_replicate, List.length_replicate⟩

theorem step_cfg {s t : State} (h : step s = .next t) : t.cfg = s.cfg := by
  obtain ⟨-, rfl⟩ | ⟨_, rest, _, -, -, he⟩ | ⟨_, _, -, -, -, -, rfl⟩ | ⟨_, -, rfl⟩ := step_cases h
  · rfl
  · exact exec_cfg (s := s.setInputs rest) he
  · rfl
  · rfl

theorem step_cacheSized {s t : State} (hs : s.CacheSized) (h : step s = .next t) : t.CacheSized := by
  obtain ⟨-, rfl⟩ | ⟨_, rest, _, -, -, he⟩ | ⟨_, _, -, -, -, -, rfl⟩ | ⟨_, -, rfl⟩ := step_cases h
  · exact hs
  · exact exec_cacheSized (s := s.setInputs rest) hs he
  · exact hs
  · exact resetWith_cacheSized _ _ _

theorem runsTo_cfg {k : Nat} {s t : State} (h : RunsTo k s t) : t.cfg = s.cfg :=
  runsTo_keeps (P := fun u => u.cfg = s.cfg) (fun _ _ hc hstep => (step_cfg hstep).trans hc) rfl h

theorem runsTo_cacheSized {k : Nat} {s t : State} (hs : s.CacheSized) (h : RunsTo k s t) : t.CacheSized :=
  runsTo_keeps (fun _ _ => step_cacheSized) hs h

/-! ### The ready flag -/

theorem construct_ready {s t : State} (h : exec .construct s = .next t) : t.ready = tPresent s.transport := by
  obtain ⟨-, ⟨hp, rfl⟩ | ⟨hp, rfl⟩⟩ := construct_cases h <;> rw [hp] <;> rfl

theorem teardown_ready {s t : State} (h : exec .teardown s = .next t) : t.ready = false := by
  obtain ⟨-, rfl⟩ | ⟨-, rfl⟩ := teardown_cases h <;> rfl

theorem update_of_ready_false (raw : Bool) {s : State} (h : s.ready = false) : (update raw s).2 = s := by
  have hr : s.phase ≠ .ready := fun hp => by simp [(ready_iff s).mpr hp] at h
  rw [update_of_not_ready raw hr]

/-! ### What a phase says of a sound state -/

theorem phaseSound_of_uninit {s : State} (h : s.phase = .uninit) :
    s.PhaseSound ↔ s.tx = [] ∧ s.NoFailureNoted ∧ s.CacheAtReset := by
  simp [State.PhaseSound, h]

theorem phaseSound_of_ready {s : State} (h : s.phase = .ready) :
    s.PhaseSound ↔ s.tx = cfgBytes s.cfg ∧ s.NoFailureNoted := by
  simp [State.PhaseSound, h]

theorem phaseSound_of_failed {s : State} (h : s.phase = .failed) :
    s.PhaseSound ↔ s.tx = [] ∧ s.FailureNoted ∧ s.CacheAtReset := by
  simp [State.PhaseSound, h]

theorem phaseSound_of_closed {s : State} (h : s.phase = .closed) :
    s.PhaseSound ↔ (s.tx = cfgBytes s.cfg ∧ s.NoFailureNoted) ∨ (s.tx = [] ∧ s.FailureNoted ∧ s.CacheAtReset) := by
  simp [State.PhaseSound, h]

/-- The first notification of a failed construction is the only one. -/
theorem emit_failureNoted {s : State} (h : s.NoFailureNoted) : (s.emit .transportUnavailable).FailureNoted := by
  unfold State.NoFailureNoted at h
  simp [State.FailureNoted, h]

/-! ### Soundness under each operation -/

theorem resetWith_sound {c : Config} {t : Transport} (h : tWithinBounds c t = true) (inputs : List Input) :
    (State.resetWith c t inputs).Sound where
  distLength := (resetWith_cacheSized c t inputs).1
  invLength := (resetWith_cacheSized c t inputs).2
  notConfiguring := rfl
  transportWithin := h
  phaseSound := (phaseSound_of_uninit rfl).mpr ⟨rfl, rfl, rfl, rfl⟩

namespace State.Sound

variable {s t : State}

theorem cacheSized (h : s.Sound) : s.CacheSized := ⟨h.distLength, h.invLength⟩

theorem setInputs (h : s.Sound) (inputs : List Input) : (s.setInputs inputs).Sound :=
  ⟨h.distLength, h.invLength, h.notConfiguring, h.transportWithin, h.phaseSound⟩

theorem reply (h : s.Sound) (r : Reply) : (s.reply r).Sound :=
  ⟨h.distLength, h.invLength, h.notConfiguring, h.transportWithin, h.phaseSound⟩

theorem setTransport (h : s.Sound) {u : Transport} (hu : tWithinBounds s.cfg u = true) : (s.setTransport u).Sound :=
  ⟨h.distLength, h.invLength, h.notConfiguring, hu, h.phaseSound⟩

/-- Outside "Configuring" nothing is sent (40_protocol_encoder.md R123). -/
theorem sendCommand (h : s.Sound) (i : Instr) : (sendCommand i s).Sound := by
  rw [sendCommand_of_idle i h.notConfiguring]
  exact h

/-- Only in `READY` does soundness leave the cache free to move. -/
theorem track (h : s.Sound) (hr : s.phase = .ready) {values : List Dist} (hv : values.length = s.cfg.n.toNat)
    (raw : Bool) : (track raw values s).Sound :=
  have hc := track_cacheSized raw values s hv h.cacheSized
  ⟨hc.1, hc.2, h.notConfiguring, h.transportWithin,
    (phaseSound_of_ready (s := Machine.track raw values s) hr).mpr ((phaseSound_of_ready hr).mp h.phaseSound)⟩

theorem update (h : s.Sound) (raw : Bool) : (update raw s).2.Sound := by
  have hread : (s.setTransport s.readAnswer.2).Sound := h.setTransport (tWithinBounds_readFrame h.transportWithin)
  obtain e | e | ⟨⟨hr, -, hv⟩, e⟩ := update_cases raw s <;> rw [e]
  · exact h
  · exact hread
  · exact hread.track hr (decodeFrame_length_of_valid _ _ hv) raw

/-- A sound `UNINIT` block has sent and noted nothing, so `CONSTRUCT` leaves exactly its own bytes, or exactly its one
note. -/
theorem construct (h : s.Sound) (he : exec .construct s = .next t) : t.Sound := by
  obtain ⟨hu, ⟨-, rfl⟩ | ⟨-, rfl⟩⟩ := construct_cases he
  all_goals obtain ⟨htx, hnotes, hcache⟩ := (phaseSound_of_uninit hu).mp h.phaseSound
  · exact ⟨h.distLength, h.invLength, rfl, h.transportWithin,
      (phaseSound_of_ready rfl).mpr ⟨by simp [htx], hnotes⟩⟩
  · exact ⟨h.distLength, h.invLength, h.notConfiguring, h.transportWithin,
      (phaseSound_of_failed rfl).mpr ⟨htx, emit_failureNoted hnotes, hcache⟩⟩

/-- The two ways into `CLOSED` are the two clauses of what `CLOSED` says. -/
theorem teardown (h : s.Sound) (he : exec .teardown s = .next t) : t.Sound := by
  obtain ⟨hr, rfl⟩ | ⟨hf, rfl⟩ := teardown_cases he
  · exact ⟨h.distLength, h.invLength, h.notConfiguring, tWithinBounds_release h.transportWithin,
      (phaseSound_of_closed rfl).mpr (.inl ((phaseSound_of_ready hr).mp h.phaseSound))⟩
  · exact ⟨h.distLength, h.invLength, h.notConfiguring, h.transportWithin,
      (phaseSound_of_closed rfl).mpr (.inr ((phaseSound_of_failed hf).mp h.phaseSound))⟩

theorem exec (h : s.Sound) {i : Instr} (he : exec i s = .next t) : t.Sound := by
  obtain ⟨raw, -, rfl⟩ | ⟨r, -, rfl⟩ | rfl | rfl | ⟨-, -, rfl⟩ | ⟨-, hroom, rfl⟩ := exec_cases he
  · exact h.update raw
  · exact h.reply r
  · exact h.construct he
  · exact h.teardown he
  · exact h.sendCommand i
  · exact h.setTransport (tWithinBounds_deliver h.transportWithin hroom)

theorem step (h : s.Sound) (hstep : step s = .next t) : t.Sound := by
  obtain ⟨-, rfl⟩ | ⟨_, rest, i, -, -, he⟩ | ⟨_, rest, -, -, hw, -, rfl⟩ | ⟨rest, -, rfl⟩ := step_cases hstep
  · exact h
  · exact (h.setInputs rest).exec he
  · exact (h.setInputs rest).setTransport (hw h.transportWithin)
  · exact resetWith_sound h.transportWithin rest

end State.Sound

end Sys2Proof.Machine

namespace Sys2Proof

open Machine

/-- Settles O45: a step is idle, an instruction, a change of the transport within its bounds, or a reset, and each keeps
soundness. -/
theorem everyStepKeepsSoundness : Obligations.EveryStepKeepsSoundness := fun _ _ => State.Sound.step

/-- Settles O21: the accepted frame has a value for every counter, and a filtered update takes each counter through
`trackInv`. -/
theorem filteredCounterIsZeroIffReadingValid : Obligations.FilteredCounterIsZeroIffReadingValid := by
  intro s hs ha
  refine ⟨_, exec_updateInstr false s, fun i v hv => ?_⟩
  obtain ⟨k, hk⟩ := inv_getElem?_of_decoded hs ha hv
  have hinv : (update false s).2.inv[i]? = some (trackInv false v k) := by
    rw [update_of_accepted false ha]
    exact track_inv_getElem? _ _ (s.setTransport s.readAnswer.2) hv hk
  rw [hinv, Option.some_inj, trackInv_filtered_eq_zero_iff]

/-- Settles O38: what is not an `UPDATE` leaves the cache. -/
theorem onlyUpdatesWriteTheCache : Obligations.OnlyUpdatesWriteTheCache := by
  intro i s t h hraw hflt
  obtain ⟨raw, rfl, -⟩ | hc := exec_update_or_sameCache h
  · cases raw
    · exact absurd rfl hflt
    · exact absurd rfl hraw
  · exact hc

/-- Settles O39: what is not an `UPDATE` leaves the cache, and a raw update the counters. -/
theorem onlyFilteredUpdatesWriteTheCounters : Obligations.OnlyFilteredUpdatesWriteTheCounters := by
  intro i s t hs h hflt
  obtain ⟨raw, rfl, rfl⟩ | hc := exec_update_or_sameCache h
  · cases raw
    · exact absurd rfl hflt
    · exact update_raw_inv hs
  · exact hc.2

/-- Settles O41: every step keeps the register counts and the parameters, and an accessor maps one register to one
value. -/
theorem cacheLengthIsAlwaysN : Obligations.CacheLengthIsAlwaysN := by
  intro k s t hs h
  have hc : t.cfg = s.cfg := runsTo_cfg h
  have ht : t.CacheSized := runsTo_cacheSized hs h
  refine ⟨ht, hc, distanceView t, invalidsView t, rfl, ?_, rfl, ?_⟩
  · rw [distanceView, List.length_map, ht.1, hc]
  · rw [invalidsView, List.length_map, ht.2, hc]

/-- Settles O36: the flag is a reading of the phase, and `CONSTRUCT`, `TEARDOWN` and `UPDATE` each answer for their
clause. -/
theorem readyFlagFollowsTheLifecycle : Obligations.ReadyFlagFollowsTheLifecycle := by
  refine ⟨ready_iff, fun _ _ => construct_ready, fun _ _ => teardown_ready, fun s raw h => ?_, rfl⟩
  rw [exec_updateInstr, update_of_ready_false raw h]

/-- Settles O43: a reset step answers `State.resetWith`, whose fields are the reset values. -/
theorem hardwareResetRestoresResetValues : Obligations.HardwareResetRestoresResetValues :=
  ⟨fun _ _ h => ⟨_, step_of_reset h, rfl, rfl, rfl, rfl, rfl, rfl, rfl, rfl, rfl, rfl, rfl⟩, rfl, rfl, rfl, rfl, rfl⟩

/-- Settles O44: the state after reset holds its reset values, whatever the block; the default transport is empty and
unbounded. -/
theorem resetStateIsSound : Obligations.ResetStateIsSound :=
  ⟨resetWith_sound rfl [], fun _ _ inputs h => resetWith_sound h inputs⟩

end Sys2Proof
end

section
/-!
The statements of 20_memory.md: the reference transport and its one sized read (R67), deliveries to the receive stream
(R65, R67, R68), and what no operation and no byte can change (R71).
-/

namespace Sys2Proof

/-- The decoder gives back every row of the table from its own word (30_encoding.md R86, R93; 40_protocol_encoder.md
R110). -/
@[simp] theorem decode_encode (i : Instr) : decode (encode i) = some i := by
  cases i with
  | resp1 a t => simp [encode, decode]
  | resp2 a b t => simp [encode, decode]
  | resp4 a b c d t => simp [encode, decode]
  | _ => rfl

end Sys2Proof

namespace Sys2Proof.Machine

/-! ### One sized read of the reference transport -/

/-- A read as long as the whole queue empties it. -/
theorem tReadFrame_ref_of_length {n : Nat} {rxq : List Byte} (p : Bool) (h : rxq.length = n) :
    tReadFrame n (.ref p rxq) = (rxq, .ref p []) := by
  subst h
  simp [tReadFrame]

/-- Without the event wait a `READY` block takes `L` bytes, or none where fewer wait. -/
theorem update_transport_ref_of_not_evw (raw : Bool) {s : State} {p : Bool} {rxq : List Byte} (hr : s.phase = .ready)
    (ht : s.transport = .ref p rxq) (he : s.cfg.evw = false) :
    (update raw s).2.transport =
      .ref p (if frameLength s.cfg ≤ rxq.length then rxq.drop (frameLength s.cfg) else rxq) := by
  split
  next hl => exact update_transport_ref raw hr ht hl
  next hl =>
    have hg : gate s.cfg s.transport = false := by
      rw [Bool.eq_false_iff, ne_eq, gate_iff_of_not_evw he, ht]
      exact hl
    rw [update_of_gate_false raw hr hg, ht]

/-- With the event wait a `READY` block takes whatever waits, up to `L` bytes; the wait is false only on an empty
queue. -/
theorem update_transport_ref_of_evw (raw : Bool) {s : State} {p : Bool} {rxq : List Byte} (hr : s.phase = .ready)
    (ht : s.transport = .ref p rxq) (he : s.cfg.evw = true) :
    (update raw s).2.transport = .ref p (rxq.drop (frameLength s.cfg)) := by
  rw [update_transport raw hr, State.readAnswer, ht, gate_of_evw he]
  cases rxq <;> rfl

/-! ### Deliveries -/

theorem receive_ref_of_room {bytes rxq : List Byte} {s : State} {p : Bool} (ht : s.transport = .ref p rxq)
    (h : withinBound (rxq.length + bytes.length) s.cfg.rxqDepth = true) :
    receive bytes s = .next (s.setTransport (.ref p (rxq ++ bytes))) := by
  simp [receive, ht, tHasRoom, tDeliver, h]

theorem receive_ref_of_no_room {bytes rxq : List Byte} {s : State} {p : Bool} (ht : s.transport = .ref p rxq)
    (h : withinBound (rxq.length + bytes.length) s.cfg.rxqDepth = false) :
    receive bytes s = .refused .receiveQueueOverflow := by
  simp [receive, ht, tHasRoom, h]

/-- The open transport takes every delivery, and its answers stay as they are (D8). -/
theorem receive_free (bytes : List Byte) {s : State} {a : Answers} (ht : s.transport = .free a) :
    receive bytes s = .next (s.setTransport (.free a)) := by
  simp [receive, ht, tHasRoom, tDeliver]

/-- A response-frame row within the room left is a step that appends its own bytes (30_encoding.md R95). -/
theorem step_of_response_ref {s : State} {i : Instr} {p : Bool} {rxq : List Byte} {rest : List Input}
    (hin : s.inputs = .word (encode i) :: rest) (hresp : i.isResponse = true) (ht : s.transport = .ref p rxq)
    (hroom : withinBound (rxq.length + i.byteLength) s.cfg.rxqDepth = true) :
    step s = .next ((s.setInputs rest).setTransport (.ref p (rxq ++ encode i))) := by
  rw [step_of_word hin (decode_encode i), exec_response hresp]
  rw [← encode_length i] at hroom
  exact receive_ref_of_room (s := s.setInputs rest) ht hroom

/-! ### What the host does next -/

theorem exec_inputs {i : Instr} {s t : State} (h : exec i s = .next t) : t.inputs = s.inputs := by
  obtain ⟨raw, -, rfl⟩ | ⟨r, -, rfl⟩ | rfl | rfl | ⟨-, -, rfl⟩ | ⟨-, -, rfl⟩ := exec_cases h
  · exact update_sameInputs raw s
  · rfl
  · obtain ⟨-, ⟨-, rfl⟩ | ⟨-, rfl⟩⟩ := construct_cases h <;> rfl
  · obtain ⟨-, rfl⟩ | ⟨-, rfl⟩ := teardown_cases h <;> rfl
  · obtain ⟨bytes, hw⟩ := sendCommand_eq i s
    rw [hw]
    rfl
  · rfl

theorem step_inputs {s t : State} (h : step s = .next t) : t.inputs = s.inputs.tail := by
  obtain ⟨hi, rfl⟩ | ⟨_, rest, _, hi, -, he⟩ | ⟨_, rest, hi, -, -, -, rfl⟩ | ⟨rest, hi, rfl⟩ := step_cases h
  · rw [hi]; rfl
  · rw [hi]; exact exec_inputs (s := s.setInputs rest) he
  · exact hi.symm
  · rw [hi]; rfl

/-- A raw reading of every channel replaces the distances and nothing else (43_validity_tracker.md R162). -/
theorem track_raw_eq (values : List Dist) (s : State) (hd : values.length = s.dist.length)
    (hi : values.length = s.inv.length) : track true values s = s.setCache values s.inv :=
  congrArg₂ (fun dist inv => s.setCache dist inv) (track_raw_dist values s hd) (track_raw_inv values s hi)

/-! ### A frame of the block's own `N`, alone in the queue -/

section OwnFrame

variable {s : State} {i : Instr} {p : Bool} (hresp : i.isResponse = true) (hown : i.wellFormed s.cfg = true)

include hresp hown

theorem values_length_of_own_frame : i.values.length = s.cfg.n.toNat := by
  rw [← decodeFrame_encode s.cfg i hresp hown]
  exact decodeFrame_length_of_valid _ _ (validFrame_encode s.cfg i hresp hown)

theorem readAnswer_of_own_frame (ht : s.transport = .ref p (encode i)) : s.readAnswer = (encode i, .ref p []) := by
  have hl : (encode i).length = frameLength s.cfg :=
    ((validFrame_iff _ _).mp (validFrame_encode s.cfg i hresp hown)).1
  rw [State.readAnswer, ht, tReadFrame_ref_of_length p hl]

theorem frameAccepted_of_own_frame (hr : s.phase = .ready) (ht : s.transport = .ref p (encode i)) :
    s.FrameAccepted := by
  have hv : validFrame s.cfg (encode i) = true := validFrame_encode s.cfg i hresp hown
  refine ⟨hr, ?_, ?_⟩
  · rw [ht]
    exact gate_ref_of_frame_waiting p ((validFrame_iff _ _).mp hv).1.ge
  · rw [readAnswer_of_own_frame hresp hown ht]
    exact hv

/-- The next `UPDATE` applies the frame's values and leaves the queue empty. -/
theorem update_of_own_frame (raw : Bool) (hr : s.phase = .ready) (ht : s.transport = .ref p (encode i)) :
    (update raw s).2 = track raw i.values (s.setTransport (.ref p [])) := by
  rw [update_of_accepted raw (frameAccepted_of_own_frame hresp hown hr ht), readAnswer_of_own_frame hresp hown ht,
    decodeFrame_encode s.cfg i hresp hown]

/-- A step on `UPDATE.RAW` stores the frame's values and leaves every counter. -/
theorem step_updateRaw_of_own_frame {rest : List Input} (hs : s.CacheSized) (hr : s.phase = .ready)
    (ht : s.transport = .ref p (encode i)) (hin : s.inputs = .word [0x03] :: rest) :
    step s = .next (((s.setInputs rest).setTransport (.ref p [])).setCache i.values s.inv) := by
  have hlen : i.values.length = s.cfg.n.toNat := values_length_of_own_frame hresp hown
  rw [step_of_word hin (decode_encode .updateRaw)]
  refine congrArg Host.Outcome.next ?_
  rw [update_of_own_frame (s := s.setInputs rest) hresp hown true hr ht]
  exact track_raw_eq _ _ (hlen.trans hs.1.symm) (hlen.trans hs.2.symm)

end OwnFrame

theorem step_of_distance {s : State} {rest : List Input} (hin : s.inputs = .word [0x04] :: rest) :
    step s = .next ((s.setInputs rest).reply (.distances (distanceView s))) :=
  step_of_word hin (decode_encode .distance)

end Sys2Proof.Machine

namespace Sys2Proof

open Machine

/-- Settles O15: the gate decides whether the one read is made, and each transport variant has its own gate. -/
theorem referenceTransportGivesOneSizedRead : Obligations.ReferenceTransportGivesOneSizedRead := fun s raw _ _ hr ht =>
  ⟨_, exec_updateInstr raw s, update_sameControl raw s, update_sameTraces raw s, update_sameInputs raw s,
    update_transport_ref_of_not_evw raw hr ht, update_transport_ref_of_evw raw hr ht⟩

/-- Settles O40: what a step can be says both what it keeps of the parameters and that it takes one input. -/
theorem parametersAndProgramAreFixed : Obligations.ParametersAndProgramAreFixed := fun _ _ h =>
  ⟨step_cfg h, congrArg frameLength (step_cfg h), step_inputs h⟩

/-- Settles O50: the delivery puts the frame alone in the queue, the raw update applies it, the accessor returns it. -/
theorem deliveredFrameReachesTheHost : Obligations.DeliveredFrameReachesTheHost := by
  intro s i p rest hs hr ht hroom hresp hown hin
  have hroom' : withinBound (([] : List Byte).length + i.byteLength) s.cfg.rxqDepth = true := by
    rwa [List.length_nil, Nat.zero_add]
  have hdeliver := step_of_response_ref hin hresp ht hroom'
  have hupdate := step_updateRaw_of_own_frame
    (s := (s.setInputs (.word [0x03] :: .word [0x04] :: rest)).setTransport (.ref p (encode i)))
    hresp hown hs.cacheSized hr rfl rfl
  exact ⟨_, (runsTo_succ hdeliver).mpr ((runsTo_succ hupdate).mpr ((runsTo_succ (step_of_distance rfl)).mpr
    ((runsTo_zero _ _).mpr rfl))), rfl, rfl, rfl, hr, rfl, rfl⟩

/-- Settles O48: a response row is the delivery of its own bytes, and a delivery is judged by the room for it alone. -/
theorem deliveriesJoinTheReceiveQueue : Obligations.DeliveriesJoinTheReceiveQueue := by
  intro s p rxq ht
  refine ⟨fun bytes rest hin => ?_, fun i hresp => ?_⟩
  · rw [step_of_rx hin]
    exact ⟨receive_ref_of_room (s := s.setInputs rest) ht, receive_ref_of_no_room (s := s.setInputs rest) ht⟩
  · rw [exec_response hresp, ← encode_length i]
    exact ⟨receive_ref_of_room ht, receive_ref_of_no_room ht⟩

/-- Settles O49: the open transport takes the frame's bytes, and a delivery writes no register or trace. -/
theorem responseFrameOnOpenTransportCompletes : Obligations.ResponseFrameOnOpenTransportCompletes := by
  intro s a i ht hresp
  refine ⟨s.setTransport (.free a), ?_, ⟨rfl, rfl⟩, ⟨rfl, rfl, rfl⟩, ⟨rfl, rfl, rfl⟩, rfl⟩
  rw [exec_response hresp]
  exact receive_free _ ht

end Sys2Proof
end

section
/-!
The statements of 30_encoding.md: the words of the table and their rows (R84, R86, R93, R94, R98), when a byte sequence
is a frame (R90), and the sentinel codes of a channel value (R88).
-/

namespace Sys2Proof

/-! ### A word that decodes is the word of its row -/

/-- A host word is its three fields side by side, `hc[7:4]`, `hc[3:1]` and `hc[0]` (30_encoding.md R93). -/
theorem hostWord_eq_fields (hc : Byte) :
    hc = hc.extractLsb' 4 4 ++ hc.extractLsb' 1 3 ++ hc.extractLsb' 0 1 := by
  have hhigh : hc.extractLsb' 4 4 ++ hc.extractLsb' 1 3 = hc.extractLsb' 1 7 :=
    BitVec.extractLsb'_append_extractLsb'_eq_extractLsb' (by rfl)
  have hall : hc.extractLsb' 1 7 ++ hc.extractLsb' 0 1 = hc.extractLsb' 0 8 :=
    BitVec.extractLsb'_append_extractLsb'_eq_extractLsb' (by rfl)
  rw [hhigh, hall, BitVec.extractLsb'_eq_self]

theorem encode_of_decodeHostWord {hc : Byte} {i : Instr} (h : decodeHostWord hc = some i) : encode i = [hc] := by
  rw [hostWord_eq_fields hc]
  unfold decodeHostWord at h
  generalize hc.extractLsb' 4 4 = zeros, hc.extractLsb' 1 3 = operation, hc.extractLsb' 0 1 = raw at h ⊢
  split at h <;> cases h <;> rfl

theorem encode_of_decodeCommand {lead cmdId param checksum : Byte} {i : Instr}
    (h : decodeCommand lead cmdId param checksum = some i) : encode i = [lead, cmdId, param, checksum] := by
  unfold decodeCommand at h
  split at h <;> cases h <;> rfl

/-- The length of the sequence tells its format, and at four bytes the header tells a frame from a command. -/
theorem encode_of_decode {bytes : List Byte} {i : Instr} (h : decode bytes = some i) : encode i = bytes := by
  unfold decode at h
  split at h
  case h_1 => exact encode_of_decodeHostWord h
  case h_2 =>
    split at h
    next hheader => cases h; simp [encode, hheader]
    next => exact encode_of_decodeCommand h
  case h_3 =>
    split at h
    next hheader => cases h; simp [encode, hheader]
    next => cases h
  case h_4 =>
    split at h
    next hheader => cases h; simp [encode, hheader]
    next => cases h
  case h_5 => cases h

/-! ### Table words and reserved host words -/

/-- A table word selects the row whose bytes it writes out (30_encoding.md R98). -/
theorem decodeTableWord_of_encode {nbits w : Nat} {i : Instr} (hn : nbits % 8 = 0)
    (h : bytesOfWord (nbits / 8) w = encode i) : decodeTableWord nbits w = some i := by
  rw [decodeTableWord, if_pos hn, h, decode_encode]

/-- The only one-byte words of the table are the six host words (30_encoding.md R93). -/
theorem hostWord_mem_of_encode {hc : Byte} {i : Instr} (h : encode i = [hc]) :
    hc ∈ ([0x02, 0x03, 0x04, 0x06, 0x08, 0x0A] : List Byte) := by
  cases i <;> cases h <;> decide

theorem decode_eq_none_of_reserved {hc : Byte}
    (h : hc ∉ ([0x02, 0x03, 0x04, 0x06, 0x08, 0x0A] : List Byte)) : decode [hc] = none :=
  Option.eq_none_iff_forall_ne_some.mpr fun _ hd => h (hostWord_mem_of_encode (encode_of_decode hd))

end Sys2Proof

namespace Sys2Proof.Machine

/-! ### A valid frame is the word of a response row -/

/-- The bytes between the header and the trailing byte are `N` pairs, each one channel value. -/
theorem exists_response_of_validFrame {c : Config} {f : List Byte} (h : validFrame c f = true) :
    ∃ i : Instr, i.isResponse = true ∧ i.wellFormed c = true ∧ encode i = f := by
  obtain ⟨hlen, hhead⟩ := (validFrame_iff c f).mp h
  cases hn : c.n with
  | one =>
    have hlen : f.length = 4 := by rw [hlen, frameLength, hn]; rfl
    match f, hlen, hhead with
    | [_, h0, l0, t], _, rfl => exact ⟨.resp1 (u16be h0 l0) t, rfl, by simp [Instr.wellFormed, hn], by simp [encode]⟩
  | two =>
    have hlen : f.length = 6 := by rw [hlen, frameLength, hn]; rfl
    match f, hlen, hhead with
    | [_, h0, l0, h1, l1, t], _, rfl =>
      exact ⟨.resp2 (u16be h0 l0) (u16be h1 l1) t, rfl, by simp [Instr.wellFormed, hn], by simp [encode]⟩
  | four =>
    have hlen : f.length = 10 := by rw [hlen, frameLength, hn]; rfl
    match f, hlen, hhead with
    | [_, h0, l0, h1, l1, h2, l2, h3, l3, t], _, rfl =>
      exact ⟨.resp4 (u16be h0 l0) (u16be h1 l1) (u16be h2 l2) (u16be h3 l3) t, rfl, by simp [Instr.wellFormed, hn],
        by simp [encode]⟩

/-! ### The sentinel codes -/

theorem readingOf_of_no_code {v : Dist} (hmin : v ≠ 0x0000) (hmax : v ≠ 0xFFFF) (hinv : v ≠ 0x0001) :
    readingOf v = .distance :=
  (if_neg hmin).trans ((if_neg hmax).trans (if_neg hinv))

/-- Each reading is told by its own code, and a distance by being none of them. -/
theorem readingOf_iff (v : Dist) :
    (readingOf v = .belowMinimum ↔ v = 0x0000) ∧ (readingOf v = .aboveMaximum ↔ v = 0xFFFF) ∧
    (readingOf v = .invalid ↔ v = 0x0001) ∧
    (readingOf v = .distance ↔ v ≠ 0x0000 ∧ v ≠ 0xFFFF ∧ v ≠ 0x0001) := by
  by_cases hmin : v = 0x0000
  · subst hmin
    decide
  by_cases hmax : v = 0xFFFF
  · subst hmax
    decide
  by_cases hinv : v = 0x0001
  · subst hinv
    decide
  rw [readingOf_of_no_code hmin hmax hinv]
  exact ⟨iff_of_false nofun hmin, iff_of_false nofun hmax, iff_of_false nofun hinv,
    iff_of_true rfl ⟨hmin, hmax, hinv⟩⟩

end Sys2Proof.Machine

namespace Sys2Proof

open Machine

/-- Settles O1: the round trip, row by row, with the bytes of each channel value put together again. -/
theorem decodeOfEncodeIsTheInstruction : Obligations.DecodeOfEncodeIsTheInstruction := decode_encode

/-- Settles O2: what each format's decoder accepts is exactly the bytes of the row it answers. -/
theorem encodeOfDecodeIsTheWord : Obligations.EncodeOfDecodeIsTheWord := fun _ _ => encode_of_decode

/-- Settles O5: a valid frame is the word of a response row of the block's `N`, and a word that decodes is its row's. -/
theorem validFrameIffOwnResponseRow : Obligations.ValidFrameIffOwnResponseRow := by
  intro c f
  constructor
  · intro h
    obtain ⟨i, hresp, hown, rfl⟩ := exists_response_of_validFrame h
    exact ⟨i, decode_encode i, hresp, hown⟩
  · rintro ⟨i, hd, hresp, hown⟩
    rw [← encode_of_decode hd]
    exact validFrame_encode c i hresp hown

/-- Settles O3: each of the twelve words writes out the bytes of its row. -/
theorem tableWordsSelectTheirRows : Obligations.TableWordsSelectTheirRows := by
  refine ⟨?_, ?_, ?_, ?_, ?_, ?_, ?_, ?_, ?_, ?_, ?_, ?_⟩ <;> exact decodeTableWord_of_encode rfl rfl

/-- Settles O4: a byte that is none of the six host words does not decode; the count goes through all 256 bytes. -/
theorem reservedHostWordIsRefused : Obligations.ReservedHostWordIsRefused :=
  ⟨fun _ _ _ hin hres => step_of_reserved hin (decode_eq_none_of_reserved hres), by decide +kernel⟩

/-- Settles O6: an audit of the seven constants, each checksum computed from the three bytes before it. -/
theorem commandConstantsSatisfyCrc : Obligations.CommandConstantsSatisfyCrc := by
  unfold Obligations.CommandConstantsSatisfyCrc
  decide +kernel

/-- Settles O24: the readings by their codes, and the tracker's two modes on a value that is not the invalid code. -/
theorem onlyTheInvalidCodeIsSpecial : Obligations.OnlyTheInvalidCodeIsSpecial := by
  intro v d k
  obtain ⟨hmin, hmax, hinv, hdist⟩ := readingOf_iff v
  exact ⟨hmin, hmax, hinv, hdist, trackDist_raw v d, trackInv_raw v k,
    fun hv => ⟨trackDist_valid hv d, trackInv_valid hv k⟩, trackDist_invalid d⟩

end Sys2Proof
end

section
/-!
The statements of 40_protocol_encoder.md: which command frames `N` and `RANGE` select and when one is sent (R110 to
R117, R119, R120), the bytes of the configuration sequence (R118), and that nothing but `CONSTRUCT` sends (R114, R123).
-/

namespace Sys2Proof.Machine

/-! ### The selected frames -/

/-- Of the pixel-mode frames `N` selects exactly its own (40_protocol_encoder.md R119). -/
theorem pixcmd_mem_cfgFrames_iff (n : ChannelCount) (c : Config) : pixcmd n ∈ cfgFrames c ↔ c.n = n := by
  obtain ⟨m, range, _, _, _⟩ := c
  cases n <;> cases m <;> cases range <;> simp [cfgFrames, pixcmd, rangecmd]

/-- Of the range frames `RANGE` selects exactly its own (40_protocol_encoder.md R120). -/
theorem rangecmd_mem_cfgFrames_iff (r : RangeMode) (c : Config) : rangecmd r ∈ cfgFrames c ↔ c.range = r := by
  obtain ⟨n, range, _, _, _⟩ := c
  cases r <;> cases range <;> cases n <;> simp [cfgFrames, pixcmd, rangecmd]

theorem outbin_mem_cfgFrames (c : Config) : Instr.outbin ∈ cfgFrames c := by
  simp [cfgFrames]

theorem cfgBytes_eq (c : Config) :
    cfgBytes c = encode (pixcmd c.n) ++ encode .outbin ++ encode (rangecmd c.range) := by
  simp [cfgBytes, cfgFrames]

/-- None of the six configuration sequences has the text-mode frame in it, not even across two of its frames. -/
theorem outtext_not_infix_cfgBytes (c : Config) : ¬ encode .outtext <:+: cfgBytes c := by
  rw [cfgBytes_eq]
  cases c.n <;> cases c.range <;> decide

/-! ### When a frame is sent -/

section Command

variable {i : Instr} (ho : i.isOperation = false) (hr : i.isResponse = false) {s : State}

include ho hr

/-- In the Configuring stage a command frame is sent exactly on the condition that selects it. -/
theorem exec_command_of_configuring {p : Prop} [Decidable p] (h : s.configuring = true)
    (hsel : i ∈ cfgFrames s.cfg ↔ p) : exec i s = .next (if p then s.write (encode i) else s) := by
  rw [exec_command ho hr]
  refine congrArg Host.Outcome.next ?_
  split
  next hp => exact sendCommand_of_selected h (hsel.mpr hp)
  next hp => exact sendCommand_of_not_selected (fun hi => hp (hsel.mp hi))

theorem exec_command_of_idle (h : s.configuring = false) : exec i s = .next s := by
  rw [exec_command ho hr, sendCommand_of_idle i h]

end Command

theorem exec_outbin_of_configuring {s : State} (h : s.configuring = true) :
    exec .outbin s = .next (s.write (encode .outbin)) := by
  rw [exec_command rfl rfl, sendCommand_of_selected h (outbin_mem_cfgFrames s.cfg)]

/-- No block selects the text-mode frame, so no stage sends it (40_protocol_encoder.md R114). -/
theorem exec_outtext (s : State) : exec .outtext s = .next s := by
  rw [exec_command rfl rfl, sendCommand_of_not_selected (outtext_not_mem_cfgFrames s.cfg)]

/-! ### What can stand in `tx` -/

/-- Outside the Configuring stage an instruction is `CONSTRUCT`, or it sends nothing (40_protocol_encoder.md R123). -/
theorem exec_construct_or_tx {i : Instr} {s t : State} (hc : s.configuring = false) (h : exec i s = .next t) :
    i = .construct ∨ t.tx = s.tx := by
  obtain ⟨raw, -, rfl⟩ | ⟨r, -, rfl⟩ | hi | rfl | ⟨-, -, rfl⟩ | ⟨-, -, rfl⟩ := exec_cases h
  · exact .inr (update_sameTraces raw s).1
  · exact .inr rfl
  · exact .inl hi
  · obtain ⟨-, rfl⟩ | ⟨-, rfl⟩ := teardown_cases h <;> exact .inr rfl
  · exact .inr (by rw [sendCommand_of_idle i hc])
  · exact .inr rfl

theorem construct_tx_of_absent {s t : State} (h : exec .construct s = .next t) (hp : tPresent s.transport = false) :
    t.tx = s.tx := by
  obtain ⟨-, ⟨hpresent, -⟩ | ⟨-, rfl⟩⟩ := construct_cases h
  · simp [hp] at hpresent
  · rfl

/-- `CONSTRUCT` leaves `UNINIT` on both of its paths. -/
theorem construct_phase_ne_uninit {s t : State} (h : exec .construct s = .next t) : t.phase ≠ .uninit := by
  obtain ⟨-, ⟨-, rfl⟩ | ⟨-, rfl⟩⟩ := construct_cases h <;> nofun

/-- Whatever its phase, a sound block has sent nothing or the one configuration sequence of its parameters. -/
theorem State.Sound.tx_eq_nil_or_cfgBytes {s : State} (h : s.Sound) : s.tx = [] ∨ s.tx = cfgBytes s.cfg := by
  have hs := h.phaseSound
  cases hp : s.phase with
  | uninit => exact .inl ((phaseSound_of_uninit hp).mp hs).1
  | ready => exact .inr ((phaseSound_of_ready hp).mp hs).1
  | failed => exact .inl ((phaseSound_of_failed hp).mp hs).1
  | closed =>
    obtain ⟨htx, -⟩ | ⟨htx, -⟩ := (phaseSound_of_closed hp).mp hs
    · exact .inr htx
    · exact .inl htx

theorem State.Sound.outtext_not_infix_tx {s : State} (h : s.Sound) : ¬ encode .outtext <:+: s.tx := by
  obtain htx | htx := h.tx_eq_nil_or_cfgBytes <;> rw [htx]
  · decide
  · exact outtext_not_infix_cfgBytes s.cfg

end Sys2Proof.Machine

namespace Sys2Proof

open Machine

/-- Settles O26: a run from a sound state ends in one, which has sent nothing or one configuration sequence. -/
theorem textModeFrameIsNeverSent : Obligations.TextModeFrameIsNeverSent :=
  ⟨rfl, exec_outtext, fun _ _ _ hs h => (runsTo_keeps (fun _ _ => State.Sound.step) hs h).outtext_not_infix_tx⟩

/-- Settles O27: every other instruction keeps `tx`, and after a `CONSTRUCT` the phase is not `UNINIT`, which another one
asks for. -/
theorem onlyConstructSends : Obligations.OnlyConstructSends :=
  ⟨fun _ _ _ hc h hi => (exec_construct_or_tx hc h).resolve_left hi, fun _ _ => construct_tx_of_absent,
    fun _ _ _ h hagain => construct_phase_ne_uninit h (construct_cases hagain).1⟩

/-- Settles O25: each frame by the parameter value that selects it, `OUTBIN` always and `OUTTEXT` never. -/
theorem commandFramesAreSentWhenSelected : Obligations.CommandFramesAreSentWhenSelected := by
  refine fun s => ⟨fun h => ⟨?_, ?_, ?_, exec_outbin_of_configuring h, ?_, ?_⟩,
    fun h => ⟨?_, ?_, ?_, ?_, ?_, ?_⟩, exec_outtext s⟩
  · exact exec_command_of_configuring rfl rfl h (pixcmd_mem_cfgFrames_iff .one s.cfg)
  · exact exec_command_of_configuring rfl rfl h (pixcmd_mem_cfgFrames_iff .two s.cfg)
  · exact exec_command_of_configuring rfl rfl h (pixcmd_mem_cfgFrames_iff .four s.cfg)
  · exact exec_command_of_configuring rfl rfl h (rangecmd_mem_cfgFrames_iff .short s.cfg)
  · exact exec_command_of_configuring rfl rfl h (rangecmd_mem_cfgFrames_iff .long s.cfg)
  all_goals exact exec_command_of_idle rfl rfl h

/-- Settles O28: the bytes sent are `CFGSEQ`'s three frames, read off the table for each `N` and `RANGE`. -/
theorem constructSendsThreeFramesInOrder : Obligations.ConstructSendsThreeFramesInOrder := by
  intro s hu hp
  refine ⟨_, exec_construct_present hu hp, ?_, rfl, rfl, ⟨rfl, rfl⟩, rfl⟩
  refine congrArg (s.tx ++ ·) ?_
  rw [cfgBytes_eq]
  cases s.cfg.n <;> cases s.cfg.range <;> rfl

end Sys2Proof
end

section
/-!
The statements of 41_frame_reader.md: the gate of each variant (R131, R132), and the two ways an `UPDATE` of a `READY`
block ends without a frame, a gate that is false (R133) and a read that is rejected (R136).
-/

namespace Sys2Proof.Machine

theorem frameLength_pos (c : Config) : 0 < frameLength c := by
  unfold frameLength
  omega

/-- Without the event wait the gate is false exactly where fewer than `L` bytes wait. -/
theorem gate_eq_false_iff_of_not_evw {c : Config} (h : c.evw = false) (t : Transport) :
    gate c t = false ↔ tAvail t < frameLength c := by
  rw [Bool.eq_false_iff, ne_eq, gate_iff_of_not_evw h, Nat.not_le]

end Sys2Proof.Machine

namespace Sys2Proof

open Machine

/-- Settles O11: each variant asks its own query; `L - 1` bytes are fewer than `L` because no frame is empty. -/
theorem gateIsTheQueryOfTheVariant : Obligations.GateIsTheQueryOfTheVariant := by
  refine fun c a => ⟨fun he => gate_of_evw he _, fun he => ⟨gate_iff_of_not_evw he _, ?_, ?_⟩⟩
  · exact (gate_iff_of_not_evw he _).mpr (Nat.le_refl (frameLength c))
  · exact (gate_eq_false_iff_of_not_evw he _).mpr (Nat.sub_one_lt_of_lt (frameLength_pos c))

/-- Settles O12: a false gate ends `TRYREAD`, and the update with it, in the state it began in. -/
theorem falseGateIsAnIdempotentNoOp : Obligations.FalseGateIsAnIdempotentNoOp := by
  refine fun s raw hr hg => ⟨tryRead_of_gate_false hg, ?_⟩
  rw [exec_updateInstr, update_of_gate_false raw hr hg]

/-- Settles O13: whichever test the read fails, the update ends with the transport's bytes taken and no more. -/
theorem rejectedReadChangesNoRegister : Obligations.RejectedReadChangesNoRegister := by
  intro s raw hr hg hv
  rw [exec_updateInstr, update_of_rejected raw hr hg hv]

end Sys2Proof
end

section
/-!
The statements of 42_frame_decoder.md: the values of a frame (R150), the three response formats (R151 to R153), and the
trailing byte, which no update interprets (R155).
-/

namespace Sys2Proof.Machine

/-! ### The bytes of a frame -/

/-- Channel `i` stands in the bytes `1 + 2*i` and `2 + 2*i` of a frame, the high one first (42_frame_decoder.md R150). -/
theorem decodeFrame_getElem? {c : Config} {f : List Byte} {i : Nat} {h l : Byte} (hi : i < c.n.toNat)
    (hh : f[1 + 2 * i]? = some h) (hl : f[2 + 2 * i]? = some l) : (decodeFrame c f)[i]? = some (u16be h l) := by
  refine channelValues_getElem? _ _ i hi h l ?_ ?_ <;> rw [List.getElem?_tail]
  · rw [← hh, Nat.add_comm]
  · rw [← hl, Nat.add_comm 2]

@[simp] theorem decodeFrame_cons (c : Config) (header : Byte) (payload : List Byte) :
    decodeFrame c (header :: payload) = channelValues c.n.toNat payload := rfl

/-- A frame without its last byte still has every byte that `DECODE` asks for. -/
theorem decodeFrame_append_trailing {c : Config} {f : List Byte} (x : Byte) (h : f.length + 1 = frameLength c) :
    decodeFrame c (f ++ [x]) = decodeFrame c f := by
  cases f with
  | nil => simp [frameLength] at h
  | cons header payload =>
    have hlen : 2 * c.n.toNat ≤ payload.length := by simp [frameLength] at h; omega
    exact channelValues_append _ payload [x] hlen

/-- The two tests of a read ask the last byte for nothing but its presence: a frame of `L` bytes has others. -/
theorem validFrame_append_trailing {c : Config} {f : List Byte} (x : Byte) :
    validFrame c (f ++ [x]) = true ↔ f.length + 1 = frameLength c ∧ f.head? = some headerByte := by
  cases f with
  | nil => simp [frameLength]
  | cons header payload => simp

/-- The frame test with `L` written out for the block's `N` (42_frame_decoder.md R151 to R153). -/
theorem validFrame_iff_of_n {c : Config} {n : ChannelCount} (h : c.n = n) (f : List Byte) :
    validFrame c f = true ↔ f.length = 2 * n.toNat + 2 ∧ f.head? = some 0x54 := by
  subst h
  exact validFrame_iff c f

/-! ### A response frame arriving, and the update that reads it -/

theorem exec_response_sameBlock {i : Instr} {s t : State} (hr : i.isResponse = true) (h : exec i s = .next t) :
    SameBlock s t := by
  rw [exec_response hr] at h
  obtain ⟨-, rfl⟩ := receive_eq_next h
  exact ⟨⟨rfl, rfl⟩, ⟨rfl, rfl, rfl⟩, ⟨rfl, rfl, rfl⟩, rfl⟩

/-- The transport apart, an `UPDATE` applies an accepted frame and does nothing else. -/
theorem update_setTransport (raw : Bool) (s : State) (u : Transport) :
    (update raw s).2.setTransport u =
      if s.FrameAccepted then (track raw (decodeFrame s.cfg s.readAnswer.1) s).setTransport u
      else s.setTransport u := by
  split
  next ha => rw [update_of_accepted raw ha]; rfl
  next ha =>
    obtain h | h | ⟨ha', -⟩ := update_cases raw s
    · rw [h]
    · rw [h]; rfl
    · exact absurd ha' ha

/-- An open answer is accepted by the phase, by the gate, which asks nothing of the bytes, and by the frame test. -/
theorem frameAccepted_free_iff (s : State) (a : Answers) (f : List Byte) :
    (s.setTransport (.free { a with frame := f })).FrameAccepted ↔
      s.phase = .ready ∧ gate s.cfg (.free a) = true ∧ validFrame s.cfg f = true := Iff.rfl

/-- The transport apart, what an `UPDATE` makes of an open answer is told without the answer's last byte. -/
theorem update_free_append_trailing (raw : Bool) (s : State) (a : Answers) (f : List Byte) (x : Byte) (u : Transport) :
    (update raw (s.setTransport (.free { a with frame := f ++ [x] }))).2.setTransport u =
      if s.phase = .ready ∧ gate s.cfg (.free a) = true ∧ f.length + 1 = frameLength s.cfg ∧
          f.head? = some headerByte
      then (track raw (decodeFrame s.cfg f) s).setTransport u else s.setTransport u := by
  rw [update_setTransport]
  simp only [frameAccepted_free_iff, validFrame_append_trailing]
  split
  next h =>
    rw [← decodeFrame_append_trailing x h.2.2.1]
    rfl
  next => rfl

end Sys2Proof.Machine

namespace Sys2Proof

open Machine

/-- Settles O8: a frame of `L` bytes has both bytes of each of its `N` channels. -/
theorem decodedChannelsAreBigEndian : Obligations.DecodedChannelsAreBigEndian := by
  intro c f hlen
  refine ⟨decodeFrame_length c f hlen, fun i hi => ?_⟩
  have hlast : 2 + 2 * i < f.length := by rw [hlen, frameLength]; omega
  have hh := List.getElem?_eq_getElem (l := f) (i := 1 + 2 * i) (by omega)
  have hl := List.getElem?_eq_getElem hlast
  exact ⟨_, _, _, hh, hl, decodeFrame_getElem? hi hh hl, u16be_toNat _ _⟩

/-- Settles O10: the values, the frame test and the gate are all told without the last byte. -/
theorem trailingByteIsNeverInterpreted : Obligations.TrailingByteIsNeverInterpreted := by
  refine ⟨fun c f x y h => ?_, fun s a f x y raw => ⟨_, _, exec_updateInstr raw _, exec_updateInstr raw _, ?_⟩⟩
  · rw [decodeFrame_append_trailing x h, decodeFrame_append_trailing y h]
  · rw [update_free_append_trailing, update_free_append_trailing]

/-- Settles O9: `N` fixes the length and the channels of the one format it admits; a row's execution is a delivery. -/
theorem responseFormatsDecodeToTheirValues : Obligations.ResponseFormatsDecodeToTheirValues := by
  refine ⟨fun c hn => ⟨validFrame_iff_of_n hn, ?_⟩, fun c hn => ⟨validFrame_iff_of_n hn, ?_⟩,
    fun c hn => ⟨validFrame_iff_of_n hn, ?_⟩, fun s t a b c d tt h => ?_⟩
  · simp [hn, ChannelCount.toNat]
  · simp [hn, ChannelCount.toNat]
  · simp [hn, ChannelCount.toNat]
  · obtain h | h | h := h
    all_goals exact exec_response_sameBlock rfl h

end Sys2Proof
end

section
/-!
The statements of 43_validity_tracker.md: what an applied update does to each channel (R162 to R164), the top of a
counter (R166), the independence of the channels (R167), and runs of updates over frames waiting in the reference transport.
-/

namespace Sys2Proof.Machine

/-! ### One applied update, channel by channel -/

section Accepted

variable {s : State} {i : Nat} {v d : Dist} {k : Count} (raw : Bool) (ha : s.FrameAccepted)

include ha

theorem update_transport_of_accepted : (update raw s).2.transport = s.readAnswer.2 := by
  rw [update_of_accepted raw ha]
  rfl

theorem update_dist_getElem? (hv : (decodeFrame s.cfg s.readAnswer.1)[i]? = some v) (hd : s.dist[i]? = some d) :
    (update raw s).2.dist[i]? = some (trackDist raw v d) := by
  rw [update_of_accepted raw ha]
  exact track_dist_getElem? _ _ (s.setTransport s.readAnswer.2) hv hd

theorem update_inv_getElem? (hv : (decodeFrame s.cfg s.readAnswer.1)[i]? = some v) (hk : s.inv[i]? = some k) :
    (update raw s).2.inv[i]? = some (trackInv raw v k) := by
  rw [update_of_accepted raw ha]
  exact track_inv_getElem? _ _ (s.setTransport s.readAnswer.2) hv hk

theorem update_raw_dist (hs : s.CacheSized) : (update true s).2.dist = decodeFrame s.cfg s.readAnswer.1 := by
  have ⟨_, _, hv⟩ := ha
  have hlen : (decodeFrame s.cfg s.readAnswer.1).length = s.dist.length :=
    (decodeFrame_length_of_valid _ _ hv).trans hs.1.symm
  rw [update_of_accepted true ha]
  exact track_raw_dist _ (s.setTransport s.readAnswer.2) hlen

end Accepted

/-- `TRACK` works register by register, a missing register or value included (43_validity_tracker.md R167). -/
theorem track_channel_congr (raw : Bool) {vs ws : List Dist} {s u : State} {i : Nat} (hv : vs[i]? = ws[i]?)
    (hd : s.dist[i]? = u.dist[i]?) (hk : s.inv[i]? = u.inv[i]?) :
    (track raw vs s).dist[i]? = (track raw ws u).dist[i]? ∧ (track raw vs s).inv[i]? = (track raw ws u).inv[i]? := by
  simp [track, List.getElem?_zipWith, hv, hd, hk]

/-! ### Updates over the frames waiting in the reference transport -/

/-- `DECODE` and `TRACK` of one frame. -/
def trackFrame (raw : Bool) (s : State) (f : List Byte) : State := track raw (decodeFrame s.cfg f) s

/-- Any number of frames tracked writes the cache and nothing else. -/
theorem foldl_trackFrame_eq_setCache (raw : Bool) (frames : List (List Byte)) (s : State) :
    ∃ dist inv, frames.foldl (trackFrame raw) s = s.setCache dist inv := by
  induction frames generalizing s with
  | nil => exact ⟨s.dist, s.inv, rfl⟩
  | cons f fs ih =>
    obtain ⟨dist, inv, h⟩ := ih (trackFrame raw s f)
    exact ⟨dist, inv, h⟩

section HeadFrame

variable {s : State} {p : Bool} {f tail : List Byte} (hv : validFrame s.cfg f = true)
  (ht : s.transport = .ref p (f ++ tail))

include hv ht

theorem readAnswer_of_head_frame : s.readAnswer = (f, .ref p tail) := by
  have hl : f.length = frameLength s.cfg := ((validFrame_iff _ _).mp hv).1
  rw [State.readAnswer, ht, ← hl]
  simp [tReadFrame]

theorem frameAccepted_of_head_frame (hr : s.phase = .ready) : s.FrameAccepted := by
  have hl : f.length = frameLength s.cfg := ((validFrame_iff _ _).mp hv).1
  refine ⟨hr, ?_, ?_⟩
  · rw [ht]
    exact gate_ref_of_frame_waiting p (by rw [List.length_append, hl]; exact Nat.le_add_right _ _)
  · rw [readAnswer_of_head_frame hv ht]
    exact hv

/-- A step on `UPDATE` takes the first waiting frame, whole, and tracks it. -/
theorem step_update_of_head_frame (raw : Bool) {rest : List Input} (hr : s.phase = .ready)
    (hin : s.inputs = .word (encode (updateInstr raw)) :: rest) :
    step s = .next (trackFrame raw ((s.setInputs rest).setTransport (.ref p tail)) f) := by
  have ha : (s.setInputs rest).FrameAccepted := frameAccepted_of_head_frame (s := s.setInputs rest) hv ht hr
  have hread : (s.setInputs rest).readAnswer = (f, .ref p tail) :=
    readAnswer_of_head_frame (s := s.setInputs rest) hv ht
  rw [step_of_word hin (decode_encode _), exec_updateInstr, update_of_accepted raw ha, hread]
  rfl

end HeadFrame

/-- As many updates as valid frames wait consume exactly those frames, each tracked in its turn. -/
theorem runsTo_updates_of_frames (raw : Bool) {frames : List (List Byte)} {s : State} {p : Bool} {tail : List Byte}
    {rest : List Input} (hr : s.phase = .ready) (ht : s.transport = .ref p (frames.flatten ++ tail))
    (hv : ∀ f ∈ frames, validFrame s.cfg f = true)
    (hin : s.inputs = List.replicate frames.length (.word (encode (updateInstr raw))) ++ rest) :
    RunsTo frames.length s (frames.foldl (trackFrame raw) ((s.setInputs rest).setTransport (.ref p tail))) := by
  induction frames generalizing s with
  | nil =>
    replace hin : s.inputs = rest := hin
    replace ht : s.transport = .ref p tail := ht
    rw [← hin, ← ht]
    exact (runsTo_zero _ _).mpr rfl
  | cons f fs ih =>
    obtain ⟨hf, hfs⟩ := List.forall_mem_cons.mp hv
    rw [List.flatten_cons, List.append_assoc] at ht
    have hstep := step_update_of_head_frame hf ht raw hr hin
    exact (runsTo_succ hstep).mpr (ih (s := trackFrame raw _ f) hr rfl hfs rfl)

/-! ### A run of invalid readings on one channel -/

theorem satInc_iterate_toNat {m : Nat} {k : Count} (h : k.toNat + m ≤ 4294967295) :
    (satInc^[m] k).toNat = k.toNat + m := by
  induction m with
  | zero => rfl
  | succ m ih =>
    have hm : (satInc^[m] k).toNat = k.toNat + m := ih (by omega)
    rw [Function.iterate_succ_apply', satInc_toNat (by omega), hm, Nat.add_assoc]

/-- Frames that are all invalid on a channel hold its distance and count one each (43_validity_tracker.md R163). -/
theorem foldl_trackFrame_of_invalid {frames : List (List Byte)} {s : State} {i : Nat} {d : Dist} {k : Count}
    (hf : ∀ f ∈ frames, (decodeFrame s.cfg f)[i]? = some 0x0001) (hd : s.dist[i]? = some d)
    (hk : s.inv[i]? = some k) :
    (frames.foldl (trackFrame false) s).dist[i]? = some d ∧
      (frames.foldl (trackFrame false) s).inv[i]? = some (satInc^[frames.length] k) := by
  induction frames generalizing s k with
  | nil => exact ⟨hd, hk⟩
  | cons f fs ih =>
    obtain ⟨hhead, hrest⟩ := List.forall_mem_cons.mp hf
    exact ih (s := trackFrame false s f) hrest (track_dist_getElem? false _ s hhead hd)
      (track_inv_getElem? false _ s hhead hk)

/-- A block with `N` registers of each kind has both registers of every channel. -/
theorem exists_registers {s : State} {i : Nat} (hs : s.CacheSized) (hi : i < s.cfg.n.toNat) :
    ∃ d k, s.dist[i]? = some d ∧ s.inv[i]? = some k :=
  ⟨_, _, List.getElem?_eq_getElem (hs.1 ▸ hi), List.getElem?_eq_getElem (hs.2 ▸ hi)⟩

theorem lt_of_decodeFrame_getElem? {c : Config} {f : List Byte} {i : Nat} {v : Dist} (hv : validFrame c f = true)
    (h : (decodeFrame c f)[i]? = some v) : i < c.n.toNat := by
  rw [← decodeFrame_length_of_valid c f hv]
  exact (List.getElem?_eq_some_iff.mp h).1

end Sys2Proof.Machine

namespace Sys2Proof

open Machine

/-- Settles O17: a raw reading is stored on every channel, and there are as many readings as registers. -/
theorem rawUpdateStoresEveryValue : Obligations.RawUpdateStoresEveryValue := fun s hs ha =>
  ⟨_, exec_updateInstr true s, update_raw_dist ha hs, update_raw_inv hs, update_transport_of_accepted true ha,
    update_sameControl true s, update_sameTraces true s, update_sameInputs true s⟩

/-- Settles O18: `trackDist` and `trackInv` of the channel's own value, invalid or not. -/
theorem filteredUpdateTracksEachChannel : Obligations.FilteredUpdateTracksEachChannel := by
  intro s hs ha
  refine ⟨_, exec_updateInstr false s, update_cacheSized false hs, update_transport_of_accepted false ha,
    update_sameControl false s, update_sameTraces false s, update_sameInputs false s, fun i v d k hv hd hk => ?_⟩
  have hdist := update_dist_getElem? false ha hv hd
  have hinv := update_inv_getElem? false ha hv hk
  constructor
  · rintro rfl
    exact ⟨hdist, fun hlt => ⟨satInc k, hinv, satInc_toNat hlt⟩⟩
  · intro hvalid
    rw [trackDist_valid hvalid] at hdist
    rw [trackInv_valid hvalid] at hinv
    exact ⟨hdist, hinv⟩

/-- Settles O19: the counter takes one more saturating increment, and `satInc` keeps the top. -/
theorem counterSaturatesAtTheTop : Obligations.CounterSaturatesAtTheTop := fun s _ _ ha hv hd hk =>
  ⟨_, exec_updateInstr false s, update_inv_getElem? false ha hv hk, update_dist_getElem? false ha hv hd⟩

/-- Settles O20: both updates are a `TRACK`, which works channel by channel. -/
theorem channelsDoNotInteract : Obligations.ChannelsDoNotInteract := by
  intro s u raw i hs hu hd hk hv
  refine ⟨_, _, exec_updateInstr raw s, exec_updateInstr raw u, ?_⟩
  rw [update_of_accepted raw hs, update_of_accepted raw hu]
  exact track_channel_congr raw hv hd hk

/-- Settles O22: the run tracks the frames one after the other, and each adds 1 below the top. -/
theorem invalidRunIsCountedExactly : Obligations.InvalidRunIsCountedExactly := by
  intro frames s p tail rest i k hs hr ht hf hk hle hin
  have hi : i < s.cfg.n.toNat := hs.2 ▸ (List.getElem?_eq_some_iff.mp hk).1
  obtain ⟨d, _, hd, -⟩ := exists_registers hs hi
  have hrun := runsTo_updates_of_frames false hr ht (fun f h => (hf f h).1) hin
  obtain ⟨hdist, hinv⟩ := foldl_trackFrame_of_invalid (s := (s.setInputs rest).setTransport (.ref p tail))
    (fun f h => (hf f h).2) hd hk
  have hsized := runsTo_cacheSized hs hrun
  refine ⟨_, _, hrun, hinv, satInc_iterate_toNat hle, hdist.trans hd.symm, ?_⟩
  obtain ⟨dist', inv', he⟩ :=
    foldl_trackFrame_eq_setCache false frames ((s.setInputs rest).setTransport (.ref p tail))
  rw [he] at hsized ⊢
  exact ⟨rfl, hsized, ⟨rfl, rfl, rfl⟩, ⟨rfl, rfl, rfl⟩, rfl⟩

/-- Settles O23: the invalid frames leave the channel some distance and some counter, and the valid one replaces
both. -/
theorem validReadingEndsAnInvalidRun : Obligations.ValidReadingEndsAnInvalidRun := by
  intro frames g s p tail rest i v hs hr ht hf hg hv hvalid hin
  obtain ⟨d, k, hd, hk⟩ := exists_registers hs (lt_of_decodeFrame_getElem? hg hv)
  have hlen : (frames ++ [g]).length = frames.length + 1 := List.length_append
  have hqueue : s.transport = .ref p ((frames ++ [g]).flatten ++ tail) := by simpa using ht
  have hall : ∀ f ∈ frames ++ [g], validFrame s.cfg f = true :=
    List.forall_mem_append.mpr ⟨fun f h => (hf f h).1, List.forall_mem_singleton.mpr hg⟩
  have hrun := runsTo_updates_of_frames false hr hqueue hall (hlen ▸ hin)
  obtain ⟨hdist, hinv⟩ := foldl_trackFrame_of_invalid (s := (s.setInputs rest).setTransport (.ref p tail))
    (fun f h => (hf f h).2) hd hk
  obtain ⟨dist', inv', he⟩ :=
    foldl_trackFrame_eq_setCache false frames ((s.setInputs rest).setTransport (.ref p tail))
  rw [he] at hdist hinv
  rw [hlen, List.foldl_concat, he] at hrun
  refine ⟨_, hrun, ?_, ?_, rfl, rfl⟩
  · rw [← trackDist_valid hvalid d]
    exact track_dist_getElem? false _ _ hv hdist
  · rw [← trackInv_valid hvalid (satInc^[frames.length] k)]
    exact track_inv_getElem? false _ _ hv hinv

end Sys2Proof
end

section
/-!
The statements of 44_driver.md: the table of the lifecycle register (R171), `CONSTRUCT` (R170, R172, R173), the paths of
an `UPDATE` (R177, R178), the accessors (R179, R180, R182), `TEARDOWN` (R181), and what is refused (R183).
-/

namespace Sys2Proof.Machine

/-! ### What is refused -/

theorem exec_construct_refused {s : State} (h : s.phase ≠ .uninit) :
    exec .construct s = .refused .constructOutsideUninit :=
  if_neg h

theorem exec_teardown_of_uninit {s : State} (h : s.phase = .uninit) :
    exec .teardown s = .refused .teardownBeforeConstruct := by
  simp [exec, execTeardown, h]

theorem exec_teardown_of_closed {s : State} (h : s.phase = .closed) :
    exec .teardown s = .refused .teardownAfterTeardown := by
  simp [exec, execTeardown, h]

/-! ### The lifecycle register -/

theorem construct_phase {s t : State} (h : exec .construct s = .next t) :
    s.phase = .uninit ∧ t.phase = if tPresent s.transport then .ready else .failed := by
  obtain ⟨hu, ⟨hp, rfl⟩ | ⟨hp, rfl⟩⟩ := construct_cases h <;> rw [hp] <;> exact ⟨hu, rfl⟩

theorem teardown_phase {s t : State} (h : exec .teardown s = .next t) :
    (s.phase = .ready ∨ s.phase = .failed) ∧ t.phase = .closed := by
  obtain ⟨hr, rfl⟩ | ⟨hf, rfl⟩ := teardown_cases h
  · exact ⟨.inl hr, rfl⟩
  · exact ⟨.inr hf, rfl⟩

/-- No other instruction writes the lifecycle register (44_driver.md R171, "same"). -/
theorem exec_phase {i : Instr} {s t : State} (h : exec i s = .next t) (hc : i ≠ .construct) (ht : i ≠ .teardown) :
    t.phase = s.phase := by
  obtain ⟨raw, -, rfl⟩ | ⟨r, -, rfl⟩ | hi | hi | ⟨-, -, rfl⟩ | ⟨-, -, rfl⟩ := exec_cases h
  · exact (update_sameControl raw s).1
  · rfl
  · exact absurd hi hc
  · exact absurd hi ht
  · obtain ⟨bytes, hw⟩ := sendCommand_eq i s
    rw [hw]
    rfl
  · rfl

/-- In `CLOSED` the two instructions that move the register are refused and an `UPDATE` is a no-op. -/
theorem exec_of_closed {i : Instr} {s t : State} (hs : s.phase = .closed) (h : exec i s = .next t) :
    t.phase = .closed ∧ SameCache s t := by
  have hc : i ≠ .construct := by
    rintro rfl
    simp [exec_construct_refused, hs] at h
  have ht : i ≠ .teardown := by
    rintro rfl
    simp [exec_teardown_of_closed hs] at h
  refine ⟨(exec_phase h hc ht).trans hs, ?_⟩
  obtain ⟨raw, -, rfl⟩ | hcache := exec_update_or_sameCache h
  · rw [update_of_not_ready raw (by simp [hs])]
    exact ⟨rfl, rfl⟩
  · exact hcache

/-! ### `CONSTRUCT` as its three frames -/

/-- Two writes, one after the other, are one write of both (20_memory.md R66). -/
theorem write_write (s : State) (xs ys : List Byte) : (s.write xs).write ys = s.write (xs ++ ys) := by
  simp [State.write]

theorem cfgBytes_length (c : Config) : (cfgBytes c).length = 12 := by
  rw [cfgBytes_eq]
  cases c.n <;> cases c.range <;> rfl

/-- In the Configuring stage each frame of `CFGSEQ` is sent (40_protocol_encoder.md R118). -/
theorem exec_of_mem_cfgFrames {i : Instr} {s : State} (h : s.configuring = true) (hi : i ∈ cfgFrames s.cfg) :
    exec i s = .next (s.write (encode i)) := by
  obtain ⟨ho, hr⟩ := cfgFrames_are_commands hi
  rw [exec_command ho hr, sendCommand_of_selected h hi]

/-! ### The accessors -/

/-- A zero-extended register of `w` bits is at most `2 ^ w - 1`. -/
theorem le_of_mem_map_toNat {w n : Nat} {registers : List (BitVec w)} (h : n ∈ registers.map BitVec.toNat) :
    n ≤ 2 ^ w - 1 := by
  obtain ⟨v, -, rfl⟩ := List.mem_map.mp h
  exact Nat.le_sub_one_of_lt v.isLt

/-- Channel `i` of an accessor's answer is register `i`, zero-extended. -/
theorem map_toNat_getElem? {w i : Nat} {v : BitVec w} {registers : List (BitVec w)} (h : registers[i]? = some v) :
    (registers.map BitVec.toNat)[i]? = some v.toNat := by
  rw [List.getElem?_map, h]
  rfl

end Sys2Proof.Machine

namespace Sys2Proof

open Machine

/-- Settles O14: one law of `update` for each path; the last path's two tests are those of an accepted frame. -/
theorem updateTakesOneOfFivePaths : Obligations.UpdateTakesOneOfFivePaths := by
  refine fun s raw => ⟨exec_updateInstr raw s, update_of_not_ready raw, update_of_gate_false raw,
    update_of_bad_length raw, update_of_bad_header raw, fun hr hg hl hh => ?_⟩
  have ha : s.FrameAccepted := ⟨hr, hg, (validFrame_iff _ _).mpr ⟨hl, hh⟩⟩
  exact ⟨congrArg Prod.fst (update_of_accepted raw ha), update_transport_of_accepted raw ha⟩

/-- Settles O30: in the Configuring stage each of the three frames is selected, and the three writes together are
`CFGSEQ`'s one. -/
theorem constructRunsTheCommandFrames : Obligations.ConstructRunsTheCommandFrames := by
  intro s hu hp
  have hpix : pixcmd s.cfg.n ∈ cfgFrames s.cfg := (pixcmd_mem_cfgFrames_iff _ _).mpr rfl
  have hrange : rangecmd s.cfg.range ∈ cfgFrames s.cfg := (rangecmd_mem_cfgFrames_iff _ _).mpr rfl
  refine ⟨_, _, (s.setConfiguring true).write (cfgBytes s.cfg), _, exec_of_mem_cfgFrames rfl hpix,
    exec_outbin_of_configuring rfl, ?_, exec_construct_present hu hp, rfl, ?_⟩
  · refine Eq.trans (exec_of_mem_cfgFrames rfl hrange) ?_
    rw [write_write, write_write, cfgBytes_eq, List.append_assoc]
  · rw [write_tx, List.length_append, cfgBytes_length]
    rfl

/-- Settles O37: `CONSTRUCT` and `TEARDOWN` by what each can do, every other instruction by its frame. -/
theorem phaseTransitionsFollowTheTable : Obligations.PhaseTransitionsFollowTheTable := by
  refine fun i s t h => ⟨?_, ?_, exec_phase h⟩
  · rintro rfl
    exact construct_phase h
  · rintro rfl
    exact teardown_phase h

/-- Settles O42: a step that is no reset is idle, an instruction, or the environment's, and none of them leaves
`CLOSED`. -/
theorem onlyResetLeavesClosed : Obligations.OnlyResetLeavesClosed := by
  intro s t hs hreset h
  obtain ⟨-, rfl⟩ | ⟨_, rest, _, -, -, he⟩ | ⟨_, _, -, -, -, -, rfl⟩ | ⟨rest, hi, -⟩ := step_cases h
  · exact ⟨hs, rfl, rfl⟩
  · exact exec_of_closed (s := s.setInputs rest) hs he
  · exact ⟨hs, rfl, rfl⟩
  · exact absurd hi (hreset rest)

/-- Settles O29: with a transport present `CONSTRUCT` writes `tx`, the stage and the phase. -/
theorem constructLeavesTheReceiveStream : Obligations.ConstructLeavesTheReceiveStream := by
  intro s t hp h
  obtain ⟨-, ⟨-, rfl⟩ | ⟨habsent, -⟩⟩ := construct_cases h
  · exact ⟨rfl, rfl, rfl, rfl, ⟨rfl, rfl⟩, rfl⟩
  · simp [hp] at habsent

/-- Settles O32: `UPDATE` tests the ready flag before it asks the transport anything. -/
theorem updateWhileNotReadyDoesNothing : Obligations.UpdateWhileNotReadyDoesNothing := by
  intro s raw h
  rw [exec_updateInstr, update_of_not_ready raw h]

/-- Settles O31: a failed `CONSTRUCT` writes `notes` and the phase, which is then not `READY`. -/
theorem constructWithoutTransportFails : Obligations.ConstructWithoutTransportFails := fun _ hu hp =>
  ⟨_, exec_construct_absent hu hp, rfl, rfl, rfl, rfl, ⟨rfl, rfl⟩, rfl, rfl, rfl, rfl, rfl,
    fun raw => updateWhileNotReadyDoesNothing _ raw nofun⟩

/-- Settles O33: an accessor answers with its registers, each zero-extended. -/
theorem accessorsReturnTheCache : Obligations.AccessorsReturnTheCache := fun s ⟨hdist, hinv⟩ =>
  ⟨distanceView s, invalidsView s, rfl, rfl, (List.length_map _).trans hdist, (List.length_map _).trans hinv,
    fun _ _ => map_toNat_getElem?, fun _ _ => map_toNat_getElem?, fun _ => le_of_mem_map_toNat,
    fun _ => le_of_mem_map_toNat⟩

/-- Settles O34: `TEARDOWN` writes the phase, and from `READY` the transport. -/
theorem teardownClosesAndKeepsTheCache : Obligations.TeardownClosesAndKeepsTheCache := by
  refine fun s => ⟨fun hr => ?_, fun hf => ?_⟩
  · exact ⟨_, exec_teardown_ready hr, rfl, rfl, rfl, fun _ _ ht => congrArg tRelease ht, ⟨rfl, rfl⟩,
      ⟨rfl, rfl, rfl⟩, rfl, rfl, rfl⟩
  · exact ⟨_, exec_teardown_failed hf, rfl, rfl, rfl, ⟨rfl, rfl⟩, ⟨rfl, rfl, rfl⟩, rfl, rfl, rfl⟩

/-- Settles O35: `CONSTRUCT` asks for `UNINIT`, `TEARDOWN` for `READY` or `FAILED`. -/
theorem operationsOutsideTheirPhaseAreRefused : Obligations.OperationsOutsideTheirPhaseAreRefused := fun _ =>
  ⟨exec_construct_refused, exec_teardown_of_uninit, exec_teardown_of_closed⟩

end Sys2Proof
end

section
/-!
The statement of 60_exceptions.md: between the host's operations the block is idle, and what the sensor and the transport
do meanwhile stays on the transport (R217, with 20_memory.md R68).
-/

namespace Sys2Proof.Machine

/-- The transport is no register and no trace of the block (20_memory.md R68). -/
theorem setTransport_sameBlock (u : Transport) (s : State) : SameBlock s (s.setTransport u) :=
  ⟨⟨rfl, rfl⟩, ⟨rfl, rfl, rfl⟩, ⟨rfl, rfl, rfl⟩, rfl⟩

theorem changeTransport_of_within {u : Transport} {s : State} (h : tWithinBounds s.cfg u = true) :
    changeTransport u s = .next (s.setTransport u) :=
  if_pos h

theorem changeTransport_of_beyond {u : Transport} {s : State} (h : tWithinBounds s.cfg u = false) :
    changeTransport u s = .refused .transportBeyondBounds :=
  if_neg (Bool.eq_false_iff.mp h)

end Sys2Proof.Machine

namespace Sys2Proof

open Machine

/-- Settles O47: a delivery, and a change within the bounds, is a write of the transport alone. -/
theorem blockActsOnlyOnHostOperations : Obligations.BlockActsOnlyOnHostOperations := by
  refine ⟨fun _ => step_of_nil, fun s t bytes rest hi h => ?_, fun s change rest hi => ?_⟩
  · rw [step_of_rx hi] at h
    obtain ⟨-, rfl⟩ := receive_eq_next h
    exact setTransport_sameBlock _ _
  · rw [step_of_transport hi]
    exact ⟨fun hw => ⟨_, changeTransport_of_within hw, setTransport_sameBlock _ _, rfl⟩,
      fun hw => changeTransport_of_beyond hw⟩

end Sys2Proof
end

section
/-!
The statement of 70_reset_and_hazards.md: a misaligned stream is not resynchronised (R246), over runs of updates against
the reference transport, whatever its bytes.
-/

namespace Sys2Proof.Machine

theorem SameControl.trans {s t u : State} (h : SameControl s t) (h' : SameControl t u) : SameControl s u := by
  obtain ⟨hphase, hconf, hcfg⟩ := h
  obtain ⟨hphase', hconf', hcfg'⟩ := h'
  exact ⟨hphase'.trans hphase, hconf'.trans hconf, hcfg'.trans hcfg⟩

theorem SameTraces.trans {s t u : State} (h : SameTraces s t) (h' : SameTraces t u) : SameTraces s u := by
  obtain ⟨htx, hreplies, hnotes⟩ := h
  obtain ⟨htx', hreplies', hnotes'⟩ := h'
  exact ⟨htx'.trans htx, hreplies'.trans hreplies, hnotes'.trans hnotes⟩

/-- A step on an `UPDATE` is the update of the state without that input, on each of its paths. -/
theorem step_of_updateInstr {raw : Bool} {s : State} {rest : List Input}
    (hin : s.inputs = .word (encode (updateInstr raw)) :: rest) :
    step s = .next (update raw (s.setInputs rest)).2 := by
  rw [step_of_word hin (decode_encode _), exec_updateInstr]

/-- A step on an `UPDATE` of a `READY` block against at least `L` waiting bytes takes `L` of them, whatever they hold. -/
theorem step_updateInstr_takes_frameLength {raw : Bool} {s : State} {p : Bool} {rxq : List Byte} {rest : List Input}
    (hr : s.phase = .ready) (ht : s.transport = .ref p rxq) (hl : frameLength s.cfg ≤ rxq.length)
    (hin : s.inputs = .word (encode (updateInstr raw)) :: rest) :
    ∃ s', step s = .next s' ∧ s'.transport = .ref p (rxq.drop (frameLength s.cfg)) ∧ SameControl s s' ∧
      SameTraces s s' ∧ s'.inputs = rest :=
  ⟨_, step_of_updateInstr hin, update_transport_ref raw (s := s.setInputs rest) hr ht hl,
    update_sameControl raw (s.setInputs rest), update_sameTraces raw (s.setInputs rest),
    update_sameInputs raw (s.setInputs rest)⟩

end Sys2Proof.Machine

namespace Sys2Proof

open Machine

/-- Settles O16, by induction on the updates: at least `L` bytes wait before each of them, so each takes exactly `L`
whatever they hold, and the queue it leaves is long enough for those that follow. -/
theorem misalignedStreamStaysMisaligned : Obligations.MisalignedStreamStaysMisaligned := by
  intro modes
  induction modes with
  | nil =>
    intro s p rxq rest _ ht _ hin
    refine ⟨s, (runsTo_zero s s).mpr rfl, ?_, ⟨rfl, rfl, rfl⟩, ⟨rfl, rfl, rfl⟩, hin⟩
    rw [List.length_nil, Nat.zero_mul, List.drop_zero]
    exact ht
  | cons raw modes ih =>
    intro s p rxq rest hr ht hl hin
    rw [List.length_cons, Nat.succ_mul] at hl ⊢
    obtain ⟨s', hstep, hqueue, hcontrol, htraces, hinputs⟩ :=
      step_updateInstr_takes_frameLength hr ht (Nat.le_of_add_left_le hl) hin
    have ⟨hphase, _, hcfg⟩ := hcontrol
    have hwaiting : modes.length * frameLength s'.cfg ≤ (rxq.drop (frameLength s.cfg)).length := by
      rw [hcfg, List.length_drop]
      exact Nat.le_sub_of_add_le hl
    obtain ⟨t, hrun, hqueue', hcontrol', htraces', hrest⟩ := ih s' p _ rest (hphase.trans hr) hqueue hwaiting hinputs
    refine ⟨t, (runsTo_succ hstep).mpr hrun, ?_, hcontrol.trans hcontrol', htraces.trans htraces', hrest⟩
    rw [hqueue', hcfg, List.drop_drop, Nat.add_comm]

end Sys2Proof
end
